-- ==== Sys2Proof/Word.lean ====
section
/-! DEFINITION. The word types of the block (spec/00_scope.md R5, R6, R7). Every value is unsigned (R7). -/

namespace Sys2Proof

/-- One buffer element or channel value: `BYTE_W` = 8 bits, unsigned (R5). -/
abbrev Byte := BitVec 8

/-- One event word of the transport port: `EV_W` = 9 bits (R6, R83). -/
abbrev EventWord := BitVec 9

/-- One command word of the consumer port: `CMD_W` = 48 bits (R6, R84). -/
abbrev CommandWord := BitVec 48

/-- The operation code field `[47:44]` of a command word (R84). -/
abbrev OpCode := BitVec 4

/-- The operand field `[39:0]` of a command word (R84). -/
abbrev CommandArg := BitVec 40

/-- The address operand of SETADDR and INIT: `ADDR_ARG_W` = 16 bits, unsigned (R6, R86). -/
abbrev AddrOperand := BitVec 16

/-- The 16-bit word in which the dimmer product is formed: `PROD_W` (R5, R153). -/
abbrev Product := BitVec 16

end Sys2Proof
end

