-- ==== Sys2Proof/Config.lean ====
section
/-! DEFINITION. The parameters of the block (spec/00_scope.md R5, R6) and its one free value, the content of
the frame buffer after a reset (spec/10_state.md R34). -/

namespace Sys2Proof.Config

/-- `FRAME_LEN`: bytes per frame and size of the frame buffer (R5). -/
abbrev frameLen : Nat := 513

/-- `N_CHANNELS`: channels per frame, buffer indices 1 to 512 (R5). -/
abbrev nChannels : Nat := 512

/-- `FOOTPRINT`: channels in the device window (R5). -/
abbrev footprint : Nat := 5

/-- `ADDR_MIN`: least legal base address (R5). -/
abbrev addrMin : Nat := 1

/-- `ADDR_MAX`: greatest legal base address (R5; 90_conflicts.md C7 keeps 506). -/
abbrev addrMax : Nat := 506

/-- `ADDR_DEFAULT`: the address held until one is set (R5). -/
abbrev addrDefault : Nat := 1

/-- `START_CODE`: the only start code accepted (R5). -/
abbrev startCode : Byte := 0#8

/-- `DIM_DEN`: divisor of the dimmer scaling (R5). -/
abbrev dimDen : Nat := 255

/-- `CNT_OVF`: what a counter increment at the greatest value does (R6, R163). The spec leaves it open
(92_eei_decisions.md D5), so the model takes it as an argument. -/
inductive CntOvf where
  | wrap
  | saturate
  deriving DecidableEq, Repr

/-- The two parameters that the spec leaves open and that a model takes as arguments: `CNT_W`, the width of each
statistics counter, and `CNT_OVF` (R6, R163; 92_eei_decisions.md D4, D5). -/
structure Params where
  /-- `CNT_W` -/
  cntW : Nat
  /-- `CNT_OVF` -/
  cntOvf : CntOvf
  deriving DecidableEq, Repr

/-- The values the spec takes: `CNT_W` = 32 and `CNT_OVF` = `wrap` (R6). -/
def Params.taken : Params := { cntW := 32, cntOvf := .wrap }

/-- FREE VALUE. The byte that buffer index `i` holds after reset number `draw` and before any BYTE has stored
there: any value 0 to 255 (R34, R210; 93_implementation_defined.md U3). It has no body, so no proof can learn it.
See notes/assumptions/1.md. -/
opaque resetByte (draw i : Nat) : Byte

end Sys2Proof.Config
end

