-- ==== Sys2Proof/Syntax.lean ====
section
/-! DEFINITION. The operations of the block (spec/30_encoding.md R91): one constructor of `Instr` per row of
spec/opcode_table.json, with its operands at the widths of R83 to R89. -/

namespace Sys2Proof

/-- The five decoded channels, in the source's field order (R31, R52, R89): a value object, not state. -/
structure Channels where
  red : Byte
  green : Byte
  blue : Byte
  dimmer : Byte
  flash : Byte
  deriving DecidableEq, Repr

/-- The two ports that carry operations (R82). -/
inductive Port where
  /-- the transport port, which carries event words (format EV) -/
  | transport
  /-- the consumer port, which carries command words (format CMD) -/
  | consumer
  deriving DecidableEq, Repr

/-- The ten operations of the block (R91). -/
inductive Instr where
  /-- BREAK, `onBreak()` (R122) -/
  | brk
  /-- BYTE, `onByteReceived(byte)` (R123): `d` is the received byte -/
  | byte (d : Byte)
  /-- INIT, `init(baseAddress)` (R170) -/
  | init (value : AddrOperand)
  /-- SETADDR, `setAddress(value)` (R110) -/
  | setaddr (value : AddrOperand)
  /-- GETADDR, `getAddress()` (R111) -/
  | getaddr
  /-- ISAVAIL, `isFrameAvailable()` (R127) -/
  | isavail
  /-- DECODE, `decode()` (R141): `p` is the present bit -/
  | decode (p : Bool)
  /-- APPLYDIMMER, `applyDimmer(channels)` (R151): `p` is the present bit -/
  | applydimmer (p : Bool) (c : Channels)
  /-- GETSTATS, `getStats()` (R160) -/
  | getstats
  /-- RESETSTATS, `resetStats()` (R161) -/
  | resetstats
  deriving DecidableEq, Repr

/-- The port on which an operation arrives: format EV for BREAK and BYTE, format CMD for the others (R91). -/
def Instr.port : Instr → Port
  | .brk | .byte _ => .transport
  | .init _ | .setaddr _ | .getaddr | .isavail | .decode _ | .applydimmer _ _ | .getstats | .resetstats => .consumer

/-- A word as it stands on a port: an event word or a command word (R82). -/
inductive PortWord where
  | ev (w : EventWord)
  | cmd (w : CommandWord)
  deriving DecidableEq, Repr

/-- The port a word stands on. -/
def PortWord.port : PortWord → Port
  | .ev _ => .transport
  | .cmd _ => .consumer

/-- What a port word is read as: an operation, or by name a reserved operation code (R90, R92). -/
inductive Decoded where
  | op (i : Instr)
  | reserved (code : OpCode)
  deriving DecidableEq, Repr

end Sys2Proof
end

