-- ==== Sys2Proof/WellFormed.lean ====
section
/-! DEFINITION. What a well-formed operation and a well-formed table word are. The operands of `Instr` have exactly
the widths of the spec's fields, so every operand value is encodable; what is left to check is the PORT an operation
stands on ("the transport port accepts only event words and the consumer port only command words", R195) and the
WIDTH of a word that is given as a number (R83, R84). -/

namespace Sys2Proof

/-- Operation `i` may stand on port `p` (R91, R195). -/
def Instr.wellFormed (p : Port) (i : Instr) : Bool := decide (i.port = p)

/-- The number `w` is a word of the port that `nbits` (whole bytes: 16 for format EV, 48 for format CMD) selects:
9 bits on the transport port (R83), 48 bits on the consumer port (R84). -/
def tableWordWellFormed (nbits w : Nat) : Bool :=
  if nbits ≤ 16 then decide (w < 2 ^ 9) else decide (nbits ≤ 48) && decide (w < 2 ^ 48)

end Sys2Proof
end

