-- ==== Sys2Proof/Decode.lean ====
section
/-! DEFINITION. Reading an operation from a port word, total and rejecting a reserved operation code by name, and
writing the word of an operation (spec/30_encoding.md R83 to R93). -/

namespace Sys2Proof

/-- The channel packing of R89: red in the least significant byte, then green, blue, dimmer, flash. -/
def packChannels (c : Channels) : CommandArg := c.flash ++ c.dimmer ++ c.blue ++ c.green ++ c.red

/-- The five channels of a packed operand or response (R89). -/
def unpackChannels (v : CommandArg) : Channels :=
  { red := v.extractLsb' 0 8, green := v.extractLsb' 8 8, blue := v.extractLsb' 16 8,
    dimmer := v.extractLsb' 24 8, flash := v.extractLsb' 32 8 }

/-- Format EV (R83): `fe` is bit 8, `d` is bits `[7:0]`, ignored when `fe` is 1. Every event word is a BREAK or a
BYTE (R90). -/
def decodeEvent (w : EventWord) : Instr :=
  if w.getLsbD 8 then .brk else .byte (w.extractLsb' 0 8)

/-- The field `op`, bits `[47:44]` of a command word (R84). -/
def opField (w : CommandWord) : OpCode := w.extractLsb' 44 4

/-- The present bit `p`, bit 40 of a command word (R84, R87). -/
def presentField (w : CommandWord) : Bool := w.getLsbD 40

/-- The field `arg`, bits `[39:0]` of a command word (R84). -/
def argField (w : CommandWord) : CommandArg := w.extractLsb' 0 40

/-- The address operand, `arg[15:0]` (R86). -/
def addrField (w : CommandWord) : AddrOperand := (argField w).extractLsb' 0 16

/-- Format CMD (R84, R85): the operation that the code selects, with the operands it uses; the other bits are
ignored (R93); codes 8 to 15 are reserved (R92). -/
def decodeCommand (w : CommandWord) : Decoded :=
  match (opField w).toNat with
  | 0 => .op (.init (addrField w))
  | 1 => .op (.setaddr (addrField w))
  | 2 => .op .getaddr
  | 3 => .op .isavail
  | 4 => .op (.decode (presentField w))
  | 5 => .op (.applydimmer (presentField w) (unpackChannels (argField w)))
  | 6 => .op .getstats
  | 7 => .op .resetstats
  | _ => .reserved (opField w)

/-- Reading a port word is total (R90). -/
def decode : PortWord → Decoded
  | .ev w => .op (decodeEvent w)
  | .cmd w => decodeCommand w

/-- An event word of format EV (R83). -/
def eventWord (fe : Bool) (d : Byte) : EventWord := BitVec.ofBool fe ++ d

/-- A command word of format CMD (R84); bits `[43:41]` are written 0, as a consumer writes them. -/
def commandWord (op : OpCode) (p : Bool) (arg : CommandArg) : CommandWord := op ++ 0#3 ++ BitVec.ofBool p ++ arg

/-- The word of an operation (R83 to R89), every ignored bit written 0. -/
def encode : Instr → PortWord
  | .brk => .ev (eventWord true 0#8)
  | .byte d => .ev (eventWord false d)
  | .init a => .cmd (commandWord 0x0#4 false (a.setWidth 40))
  | .setaddr a => .cmd (commandWord 0x1#4 false (a.setWidth 40))
  | .getaddr => .cmd (commandWord 0x2#4 false 0#40)
  | .isavail => .cmd (commandWord 0x3#4 false 0#40)
  | .decode p => .cmd (commandWord 0x4#4 p 0#40)
  | .applydimmer p c => .cmd (commandWord 0x5#4 p (packChannels c))
  | .getstats => .cmd (commandWord 0x6#4 false 0#40)
  | .resetstats => .cmd (commandWord 0x7#4 false 0#40)

/-- The port word that the number `w` of an opcode-table row of `nbits` bits (in whole bytes) stands for: an event
word (table width 9) or a command word (table width 48); none where the number does not fit the port. -/
def portWordOf (nbits w : Nat) : Option PortWord :=
  if tableWordWellFormed nbits w then
    some (if nbits ≤ 16 then .ev (BitVec.ofNat 9 w) else .cmd (BitVec.ofNat 48 w))
  else none

/-- The operation the decoder reads from the table word `w` of `nbits` bits. -/
def decodeTableWord (nbits w : Nat) : Option Instr :=
  match portWordOf nbits w with
  | some pw =>
    match decode pw with
    | .op i => some i
    | .reserved _ => none
  | none => none

end Sys2Proof
end

