-- ==== Sys2Proof/Machine/State.lean ====
section
/-! DEFINITION. The state of the block (spec/10_state.md R20 to R34), the observations of R13, and, as the model's
own fields, the two outside agents' words still to come and the order in which agents move (spec/00_scope.md R11,
R12). Plain data throughout. -/

namespace Sys2Proof.Machine

/-- The frame buffer as data: a list of (index, byte) pairs, indices strictly rising, holding what BYTE events have
stored since the reset. An index that is not listed holds its unspecified reset content (R34). -/
abbrev Memory := List Host.Cell

/-- A buffer index, 0 to 512 (R50). No operation can name another (R56). -/
abbrev Index := Fin Config.frameLen

/-- The write cursor, 0 to 513: the values 514 to 1023 of a 10-bit register are unrepresentable, as R22 asks. -/
abbrev Cursor := Fin (Config.frameLen + 1)

/-- A base address, 1 to 506 (R24): 0 and 507 to 511 "cannot be stored" (R30), so they are unrepresentable. -/
structure BaseAddr where
  val : Nat
  legal : Config.addrMin ≤ val ∧ val ≤ Config.addrMax
  deriving DecidableEq, Repr

/-- The address held until one is set, `ADDR_DEFAULT` (R24). -/
def BaseAddr.default : BaseAddr := { val := Config.addrDefault, legal := by decide }

/-- The progress of a DECODE that is between two of its boundaries (R32, R141): after which of its six reads it
stands, the address it sampled, and the bytes read so far. Past the start-code test the start code is 0, so it is
not kept. -/
inductive DecodeProgress where
  /-- `BUF[0]` is read, its value is `start`; the start-code test comes next -/
  | startRead (base : BaseAddr) (start : Byte)
  /-- red is read; green comes next -/
  | redRead (base : BaseAddr) (red : Byte)
  /-- green is read; blue comes next -/
  | greenRead (base : BaseAddr) (red green : Byte)
  /-- blue is read; dimmer comes next -/
  | blueRead (base : BaseAddr) (red green blue : Byte)
  /-- dimmer is read; flash comes next -/
  | dimmerRead (base : BaseAddr) (red green blue dimmer : Byte)
  deriving DecidableEq, Repr

/-- The failure kinds that a response can carry (R88, R180). -/
inductive FailKind where
  | invalidStartCode
  | invalidAddress
  | nullArgument
  | reservedOperation
  deriving DecidableEq, Repr

/-- The data of a successful response (R89). DECODE and APPLYDIMMER both answer five channels; the constructor says
which operation answered. -/
inductive RspData where
  /-- INIT, SETADDR, RESETSTATS: no data -/
  | empty
  /-- GETADDR -/
  | address (a : BaseAddr)
  /-- ISAVAIL: the flag before the operation -/
  | flag (b : Bool)
  /-- DECODE -/
  | decoded (c : Channels)
  /-- APPLYDIMMER -/
  | dimmed (c : Channels)
  /-- GETSTATS: valid frames, invalid frames -/
  | stats (valid invalid : Nat)
  deriving DecidableEq, Repr

/-- A response of the consumer port (R9, R88): success with data, or one failure kind and no data. -/
inductive Response where
  | ok (d : RspData)
  | fail (k : FailKind)
  deriving DecidableEq, Repr

/-- One entry of the global order of steps and outputs (R12, R13). Outputs stand after the step that made them. -/
inductive Entry where
  /-- a step began operation `i`: a whole event or consumer operation, or the first segment of a DECODE -/
  | took (i : Instr)
  /-- a step took a command word with a reserved operation code (R92) -/
  | tookReserved (code : OpCode)
  /-- a step ran a later segment of the DECODE in progress -/
  | resumed
  /-- a step in which `rst` is asserted (R210) -/
  | resetTaken
  /-- output: one pulse on `arm_next` (R125) -/
  | armNext
  /-- output: a response on the consumer port (`rsp_valid`, `rsp_word`) -/
  | response (r : Response)
  deriving DecidableEq, Repr

/-- Who moves in a step (R11, R12), or the reset input (R210). -/
inductive Turn where
  /-- the transport delivers its next event word (`ev_valid`, `ev_word`) -/
  | transport
  /-- the consumer takes its next step: the next segment of the DECODE in progress, else its next command word
  (`cmd_valid`, `cmd_word`) -/
  | consumer
  /-- `rst` is asserted -/
  | rst
  deriving DecidableEq, Repr

/-- The state. The first seven fields are all the state the spec gives the block (R20, R32); the others are the
model's own. -/
structure State where
  /-- `BUF[0..512]`, 8 bits each (R21) -/
  buf : Memory
  /-- `CUR`, the write cursor (R22) -/
  cur : Cursor
  /-- `AVAIL`, the frame-available flag (R23) -/
  avail : Bool
  /-- `ADDR`, the base address (R24) -/
  addr : BaseAddr
  /-- `VALID`, the valid-frame counter, 0 to 2^CNT_W - 1 (R25) -/
  valid : Nat
  /-- `INVALID`, the invalid-frame counter, 0 to 2^CNT_W - 1 (R26) -/
  invalid : Nat
  /-- the progress of a DECODE between two of its boundaries; none when no DECODE is in progress (R32) -/
  progress : Option DecodeProgress
  /-- the parameters `CNT_W` and `CNT_OVF` of this block (R6); no step changes them -/
  cfg : Config.Params
  /-- how many resets came before: selects the free content of `BUF` (see `Config.resetByte`) -/
  draw : Nat
  /-- the event words the transport has still to deliver, next first (R12) -/
  events : List EventWord
  /-- the command words the consumer has still to issue, next first (R12) -/
  commands : List CommandWord
  /-- the interleaving still to come, next first (R12) -/
  turns : List Turn
  /-- the steps taken and the outputs made, NEWEST first (R13) -/
  trace : List Entry
  deriving DecidableEq, Repr

/-- The machine stops with a fault: never. "There is no `fault` and no `stuck` entry: the block has no trap and no
state in which an operation is not enabled" (93_implementation_defined.md, R14), and an access outside the buffer
cannot be expressed (R56). So the type has no constructor. -/
inductive Fault where
  deriving DecidableEq, Repr

/-- The model refuses to give a meaning. -/
inductive Refusal where
  /-- an instruction whose meaning is not written; raised by no arm of this model (safe) -/
  | notModelled (mnemonic : String)
  deriving DecidableEq, Repr

/-- The state after reset (R34, R210): `ADDR` 1, `CUR` 0, `AVAIL` 0, both counters 0, no DECODE in progress, and
`BUF` unspecified: nothing listed, so every index reads as its free value. No agent has a word to deliver. -/
def State.reset : State :=
  { buf := [], cur := ⟨0, by decide⟩, avail := false, addr := BaseAddr.default, valid := 0, invalid := 0,
    progress := none, cfg := Config.Params.taken, draw := 0, events := [], commands := [], turns := [], trace := [] }

end Sys2Proof.Machine
end

