-- ==== Sys2Proof/Machine/Ops.lean ====
section
/-! DEFINITION. The named operations over the buffer and the registers, the two outputs, and what the block has in the
place of taking an exception: ending a consumer operation with a failure response (spec/60_exceptions.md R180, R193:
"There is no trap entry", R194: "There is no return instruction"). -/

namespace Sys2Proof.Machine

/-! ## The buffer as data -/

/-- The byte stored at an index since the reset, if any. -/
def Memory.peek : Memory → Nat → Option Byte
  | [], _ => none
  | c :: m, a => if c.1 = a then some c.2 else Memory.peek m a

/-- Storing a byte, keeping the indices strictly rising. -/
def Memory.poke : Memory → Nat → Byte → Memory
  | [], a, v => [(a, v)]
  | c :: m, a, v =>
    if a < c.1 then (a, v) :: c :: m
    else if c.1 = a then (a, v) :: m
    else c :: Memory.poke m a v

/-- The canonical form: indices strictly rising and inside the buffer (R50). An unlisted index holds no stored byte,
so no entry can equal what an unlisted index holds. -/
abbrev Memory.wf (m : Memory) : Prop :=
  (m.map (fun c => c.1)).Pairwise (· < ·) ∧ ∀ c ∈ m, c.1 < Config.frameLen

/-! ## Registers -/

def State.setBuf (s : State) (m : Memory) : State := { s with buf := m }
def State.setCur (s : State) (c : Cursor) : State := { s with cur := c }
def State.setAvail (s : State) (b : Bool) : State := { s with avail := b }
def State.setAddr (s : State) (a : BaseAddr) : State := { s with addr := a }
def State.setValid (s : State) (n : Nat) : State := { s with valid := n }
def State.setInvalid (s : State) (n : Nat) : State := { s with invalid := n }
def State.setProgress (s : State) (d : Option DecodeProgress) : State := { s with progress := d }

/-- Adding one entry to the global order of steps and outputs (R12, R13). -/
def State.record (s : State) (e : Entry) : State := { s with trace := e :: s.trace }

/-! ## Access to the buffer -/

/-- What an index that no BYTE has stored to since the reset reads as: any byte, the free value (R34). -/
def unlistedByte (draw : Nat) (i : Index) : Byte := Config.resetByte draw i.val

/-- `MemRead(i, 1)`, that is `BUF[i]` read (R8, R57). No side effect (R59). -/
def State.readByte (s : State) (i : Index) : Byte := (Memory.peek s.buf i.val).getD (unlistedByte s.draw i)

/-- `MemWrite(i, 1, v)`, that is `BUF[i] <- v` (R8, R57). -/
def State.writeByte (s : State) (i : Index) (v : Byte) : State := s.setBuf (Memory.poke s.buf i.val v)

/-! ## Outputs -/

/-- `emit arm_next` (R9): one pulse on the `arm_next` output. -/
def State.emitArm (s : State) : State := s.record .armNext

/-- A response on the consumer port (R9). -/
def State.respond (s : State) (r : Response) : State := s.record (.response r)

/-- `return OK(data)` (R9). -/
def returnOk (d : RspData) (s : State) : State := s.respond (.ok d)

/-- `return FAIL(kind)` (R9): a failure saves no state, switches no mode and sends control nowhere (R193). -/
def returnFail (k : FailKind) (s : State) : State := s.respond (.fail k)

/-! ## Counters -/

/-- `inc(x)` for a counter of `w` bits (R163). -/
def incCounter (w : Nat) (ovf : Config.CntOvf) (x : Nat) : Nat :=
  if x < 2 ^ w - 1 then x + 1
  else
    match ovf with
    | .wrap => 0
    | .saturate => 2 ^ w - 1

/-- `VALID <- inc(VALID)` (R141, R163). -/
def State.countValid (s : State) : State := s.setValid (incCounter s.cfg.cntW s.cfg.cntOvf s.valid)

/-- `INVALID <- inc(INVALID)` (R141, R163). -/
def State.countInvalid (s : State) : State := s.setInvalid (incCounter s.cfg.cntW s.cfg.cntOvf s.invalid)

/-- `VALID <- 0`, `INVALID <- 0` (R161, R170). -/
def State.clearCounters (s : State) : State := (s.setValid 0).setInvalid 0

/-! ## Reset values of the registers -/

/-- Every register of R20 at its reset value (R34): what INIT and the reset have in common (R170). -/
def State.registersAtReset (s : State) : State :=
  (((s.setCur ⟨0, by decide⟩).setAvail false).clearCounters).setAddr BaseAddr.default

/-- A step in which `rst` is asserted (R210, R213): the registers at their reset values, the buffer unspecified
again, a DECODE in progress abandoned; no `arm_next`, no response. -/
def takeReset (s : State) : State :=
  { (((s.registersAtReset).setBuf []).setProgress none) with draw := s.draw + 1 }

end Sys2Proof.Machine
end

