-- ==== Sys2Proof/Machine/Agents.lean ====
section
/-! DEFINITION. Which agent moves, what it delivers, and how a word comes to stand on a port (spec/00_scope.md R11,
R12; spec/60_exceptions.md R187, R190, R194, R197). The block has no program counter and fetches no program
(spec/10_state.md R28): the next operation is the next word of the agent whose turn it is. -/

namespace Sys2Proof.Machine

/-- What one step does, with the state it does it on. -/
inductive Action where
  /-- nothing is delivered: no turn is left, or the agent whose turn it is has no word -/
  | idle (t : State)
  /-- `rst` is asserted -/
  | reset (t : State)
  /-- operation `i` runs: a whole event or consumer operation, or the first segment of a DECODE -/
  | run (i : Instr) (t : State)
  /-- a command word with a reserved operation code -/
  | reserved (t : State)
  /-- the next segment of the DECODE in progress -/
  | resume (d : DecodeProgress) (t : State)
  deriving DecidableEq, Repr

/-- The transport delivers its next event word; events take effect in the order delivered, whole (R187, R191). -/
def transportMove (s : State) : Action :=
  match s.events with
  | [] => .idle s
  | w :: es => .run (decodeEvent w) ({ s with events := es }.record (.took (decodeEvent w)))

/-- The consumer's next step: a DECODE in progress goes on with its next segment (R194); the next command word is
taken only when the operation before it has ended (R12, R197). -/
def consumerMove (s : State) : Action :=
  match s.progress with
  | some d => .resume d (s.record .resumed)
  | none =>
    match s.commands with
    | [] => .idle s
    | w :: cs =>
      match decodeCommand w with
      | .op i => .run i ({ s with commands := cs }.record (.took i))
      | .reserved code => .reserved ({ s with commands := cs }.record (.tookReserved code))

/-- The next action: the first turn of the interleaving decides who moves (R12). -/
def nextAction (s : State) : Action :=
  match s.turns with
  | [] => .idle s
  | .rst :: ts => .reset ({ s with turns := ts }.record .resetTaken)
  | .transport :: ts => transportMove { s with turns := ts }
  | .consumer :: ts => consumerMove { s with turns := ts }

/-- A command word with a reserved operation code (R92, R185): no state changes, no `arm_next`,
`FAIL(ReservedOperation)`. -/
def takeReserved (s : State) : State := returnFail .reservedOperation s

/-- Placing a word as the very next one of the agent whose port it belongs to, with that agent's turn next. For a
command word no DECODE may be in progress, since the consumer would go on with that first. -/
def offerWord (s : State) : PortWord → State
  | .ev w => { s with events := w :: s.events, turns := .transport :: s.turns }
  | .cmd w => { s with commands := w :: s.commands, turns := .consumer :: s.turns, progress := none }

/-- Placing the table word `w` of `nbits` bits; a number that is no word of a port is not placed. -/
def offerTableWord (s : State) (nbits w : Nat) : State :=
  match portWordOf nbits w with
  | some pw => offerWord s pw
  | none => s

end Sys2Proof.Machine
end

