-- ==== Sys2Proof/Machine/Operands.lean ====
section
/-! DEFINITION. The operand forms: the checked address operand (spec/40_address_config.md R110), the base plus offset
index of the window (spec/42_frame_decoder.md R142, spec/20_memory.md R52), the cursor as an index and its increment
(spec/41_frame_receiver.md R123, R124). -/

namespace Sys2Proof.Machine

/-- The address operand, checked (R110): the whole 16-bit number is compared with 1 and 506, unsigned, and
`value[8:0]` loses nothing of a legal one. -/
def addressOperand (value : AddrOperand) : Option BaseAddr :=
  if h : Config.addrMin ≤ value.toNat ∧ value.toNat ≤ Config.addrMax then some { val := value.toNat, legal := h }
  else none

/-- Index 0, the start code (R51). -/
def startIndex : Index := ⟨0, by decide⟩

/-- The index `ADDR + k` of field `k` of the window (R52, R142): computed without wrap-around, inside the buffer for
every legal address. -/
def windowIndex (a : BaseAddr) (k : Fin Config.footprint) : Index :=
  ⟨a.val + k.val, Nat.lt_of_le_of_lt (Nat.add_le_add a.legal.2 (Nat.le_of_lt_succ k.isLt)) (by decide)⟩

/-- The cursor as a buffer index, in the Filling state (`CUR < 513`, R120); none in the Full state. -/
def fillIndex (c : Cursor) : Option Index :=
  if h : c.val < Config.frameLen then some ⟨c.val, h⟩ else none

/-- `CUR + 1`, computed only for a cursor of at most 512, so it never wraps (R124). -/
def nextCursor (i : Index) : Cursor := ⟨i.val + 1, Nat.succ_lt_succ i.isLt⟩

/-- The new cursor is 513: the Full state (R120, R123). -/
def isFull (c : Cursor) : Bool := decide (c.val = Config.frameLen)

end Sys2Proof.Machine
end

