-- ==== Sys2Proof/Machine/AddressConfig.lean ====
section
/-! DEFINITION. Address configuration (spec/40_address_config.md): SETADDR, GETADDR. -/

namespace Sys2Proof.Machine

/-- "`ADDR <- value[8:0]`; return OK" for a legal operand, else `FAIL(InvalidAddress)` with the address as it is: the
body of SETADDR (R110) and the end of INIT (R170). -/
def storeAddress (value : AddrOperand) (s : State) : State :=
  match addressOperand value with
  | some a => returnOk .empty (s.setAddr a)
  | none => returnFail .invalidAddress s

/-- SETADDR (R110). -/
def execSetaddr (value : AddrOperand) (s : State) : Host.Outcome State Fault Refusal :=
  .next (storeAddress value s)

/-- GETADDR (R111). -/
def execGetaddr (s : State) : Host.Outcome State Fault Refusal :=
  .next (returnOk (.address s.addr) s)

end Sys2Proof.Machine
end

