-- ==== Sys2Proof/Machine/Dimmer.lean ====
section
/-! DEFINITION. The RGB dimmer compositor (spec/43_dimmer_compositor.md): APPLYDIMMER. -/

namespace Sys2Proof.Machine

/-- The scaling law (R152): the exact product, then the quotient by 255 rounded toward zero. Computed on natural
numbers, as R153 allows. -/
def scaleByte (c d : Byte) : Byte := BitVec.ofNat 8 (c.toNat * d.toNat / Config.dimDen)

/-- Red, green and blue scaled by the input dimmer; dimmer and flash passed through (R151). -/
def scaleChannels (c : Channels) : Channels :=
  { c with red := scaleByte c.red c.dimmer, green := scaleByte c.green c.dimmer, blue := scaleByte c.blue c.dimmer }

/-- APPLYDIMMER (R150, R151): a pure function of its operands. -/
def execApplydimmer (p : Bool) (c : Channels) (s : State) : Host.Outcome State Fault Refusal :=
  if p then .next (returnOk (.dimmed (scaleChannels c)) s) else .next (returnFail .nullArgument s)

end Sys2Proof.Machine
end

