-- ==== Sys2Proof/Machine/FrameDecoder.lean ====
section
/-! DEFINITION. The frame decoder (spec/42_frame_decoder.md): DECODE, as six segments of one buffer read each, with a
boundary after each of the first five (R141, `DECODE_GRANULARITY` = bytewise). `execDecode` is the first segment;
`resumeDecode` is each later one. -/

namespace Sys2Proof.Machine

/-- DECODE, first segment (R141): with `p = 0` a failure that reads and writes nothing (R143); else `ADDR` is sampled
and `BUF[0]` is read. -/
def execDecode (p : Bool) (s : State) : Host.Outcome State Fault Refusal :=
  if p then .next (s.setProgress (some (.startRead s.addr (s.readByte startIndex))))
  else .next (returnFail .nullArgument s)

/-- DECODE, a later segment (R141): the start-code test and the read of red; the reads of green, blue, dimmer; the
read of flash and the response. `INVALID` is counted by the segment that tests the start code, `VALID` by the last
(92_eei_decisions.md D32). -/
def resumeDecode (d : DecodeProgress) (s : State) : State :=
  match d with
  | .startRead a start =>
    if start = Config.startCode then s.setProgress (some (.redRead a (s.readByte (windowIndex a 0))))
    else returnFail .invalidStartCode (s.setProgress none).countInvalid
  | .redRead a r => s.setProgress (some (.greenRead a r (s.readByte (windowIndex a 1))))
  | .greenRead a r g => s.setProgress (some (.blueRead a r g (s.readByte (windowIndex a 2))))
  | .blueRead a r g b => s.setProgress (some (.dimmerRead a r g b (s.readByte (windowIndex a 3))))
  | .dimmerRead a r g b dim =>
    returnOk
      (.decoded { red := r, green := g, blue := b, dimmer := dim, flash := s.readByte (windowIndex a 4) })
      (s.setProgress none).countValid

end Sys2Proof.Machine
end

