-- ==== Sys2Proof/Machine/Init.lean ====
section
/-! DEFINITION. Initialisation (spec/45_init.md): INIT. -/

namespace Sys2Proof.Machine

/-- INIT (R170): every register at its reset value, one `arm_next`, then what SETADDR does, so that an illegal
operand leaves address 1 and answers `FAIL(InvalidAddress)`. The buffer is not written. -/
def execInit (value : AddrOperand) (s : State) : Host.Outcome State Fault Refusal :=
  .next (storeAddress value s.registersAtReset.emitArm)

end Sys2Proof.Machine
end

