-- ==== Sys2Proof/Machine/Flags.lean ====
section
/-! DEFINITION. The one flag of the block, `AVAIL` (spec/10_state.md R23, R29): set by the receiver, cleared by BREAK
and INIT, tested and cleared in one step by the consumer. There are no other flags. -/

namespace Sys2Proof.Machine

/-- `AVAIL <- 1`: the frame-available signal of the receiver (R61, R123). -/
def State.raiseAvail (s : State) : State := s.setAvail true

/-- `AVAIL <- 0` (R122). -/
def State.clearAvail (s : State) : State := s.setAvail false

/-- The read-and-clear of `AVAIL` as one indivisible operation (R65, R127, R129 (d)): the flag before, and the state after. -/
def State.testAndClear (s : State) : Bool × State := (s.avail, s.clearAvail)

end Sys2Proof.Machine
end

