-- ==== Sys2Proof/Machine/Receiver.lean ====
section
/-! DEFINITION. The frame receiver (spec/41_frame_receiver.md): BREAK, BYTE, ISAVAIL. -/

namespace Sys2Proof.Machine

/-- BREAK (R122, R129 (a)): `CUR <- 0`, `AVAIL <- 0`; the buffer keeps its bytes, no `arm_next`. -/
def execBrk (s : State) : Host.Outcome State Fault Refusal :=
  .next (s.setCur ⟨0, by decide⟩).clearAvail

/-- The byte accumulator (R123, R129 (b)): store at the cursor, advance it, raise `AVAIL` when it becomes 513. -/
def storeAtCursor (d : Byte) (i : Index) (s : State) : State :=
  let t := (s.writeByte i d).setCur (nextCursor i)
  if isFull t.cur then t.raiseAvail else t

/-- BYTE (R123, R125): stored while Filling, discarded without a trace in the state while Full (R126,
R129 (c)); one `arm_next` in both cases. -/
def execByte (d : Byte) (s : State) : Host.Outcome State Fault Refusal :=
  match fillIndex s.cur with
  | some i => .next (storeAtCursor d i s).emitArm
  | none => .next s.emitArm

/-- ISAVAIL (R127, R129 (d)): test and clear the flag in one step. -/
def execIsavail (s : State) : Host.Outcome State Fault Refusal :=
  let (r, t) := s.testAndClear
  .next (returnOk (.flag r) t)

end Sys2Proof.Machine
end

