-- ==== Sys2Proof/Machine/Stats.lean ====
section
/-! DEFINITION. The statistics counters (spec/44_stats_tracker.md): GETSTATS, RESETSTATS. -/

namespace Sys2Proof.Machine

/-- GETSTATS (R160): both counters, read in one step. -/
def execGetstats (s : State) : Host.Outcome State Fault Refusal :=
  .next (returnOk (.stats s.valid s.invalid) s)

/-- RESETSTATS (R161): both counters cleared in one step. -/
def execResetstats (s : State) : Host.Outcome State Fault Refusal :=
  .next (returnOk .empty s.clearCounters)

end Sys2Proof.Machine
end

