-- ==== Sys2Proof/Machine/Dispatch.lean ====
section
/-! DEFINITION. One arm per operation (spec/30_encoding.md R91). -/

namespace Sys2Proof.Machine

def exec (i : Instr) (s : State) : Host.Outcome State Fault Refusal :=
  match i with
  | .brk => Sys2Proof.Machine.execBrk s
  | .byte d => Sys2Proof.Machine.execByte d s
  | .init value => Sys2Proof.Machine.execInit value s
  | .setaddr value => Sys2Proof.Machine.execSetaddr value s
  | .getaddr => Sys2Proof.Machine.execGetaddr s
  | .isavail => Sys2Proof.Machine.execIsavail s
  | .decode p => Sys2Proof.Machine.execDecode p s
  | .applydimmer p c => Sys2Proof.Machine.execApplydimmer p c s
  | .getstats => Sys2Proof.Machine.execGetstats s
  | .resetstats => Sys2Proof.Machine.execResetstats s

end Sys2Proof.Machine
end

