-- ==== Sys2Proof/Machine/Step.lean ====
section
/-! DEFINITION. One step of the block (spec/00_scope.md R12). -/

namespace Sys2Proof.Machine

/-- One step: an event operation, a consumer operation, a segment of a DECODE, a reset, or nothing when nothing is
delivered. -/
def step (s : State) : Host.Outcome State Fault Refusal :=
  match nextAction s with
  | .idle t => .next t
  | .reset t => .next (takeReset t)
  | .run i t => exec i t
  | .reserved t => .next (takeReserved t)
  | .resume d t => .next (resumeDecode d t)

/-- `s` with the table word `w` of `nbits` bits placed as the very next word of its port, its agent's turn next. -/
def State.withFetchWord (s : State) (nbits w : Nat) : State := offerTableWord s nbits w

end Sys2Proof.Machine
end

