-- ==== Sys2Proof/Machine/Shorthand.lean ====
section
/-! DEFINITION. The textual form of operations and responses (spec/30_encoding.md R95) and the spec's shorthand for
rows of operations (R96: BYTES, FRAME, POLL). "The block knows nothing of them" (R96): no step reads this file. -/

namespace Sys2Proof.Machine

/-- An unsigned value in decimal (R95). -/
def decimal {w : Nat} (v : BitVec w) : String := toString v.toNat

/-- Five channels, separated by commas, in the source's field order (R95). -/
def channelsText (c : Channels) : String :=
  ",".intercalate [decimal c.red, decimal c.green, decimal c.blue, decimal c.dimmer, decimal c.flash]

/-- The line of an operation (R95): the mnemonic first, then its operands. With the present bit 0 the one operand is
written `null`. -/
def operationText : Instr → String
  | .brk => "BREAK"
  | .byte d => "BYTE " ++ decimal d
  | .init a => "INIT " ++ decimal a
  | .setaddr a => "SETADDR " ++ decimal a
  | .getaddr => "GETADDR"
  | .isavail => "ISAVAIL"
  | .decode true => "DECODE"
  | .decode false => "DECODE null"
  | .applydimmer true c => "APPLYDIMMER " ++ channelsText c
  | .applydimmer false _ => "APPLYDIMMER null"
  | .getstats => "GETSTATS"
  | .resetstats => "RESETSTATS"

/-- The expected response, as it stands after the arrow (R95). -/
def responseText : Response → String
  | .ok .empty => "OK"
  | .ok (.address a) => "OK " ++ toString a.val
  | .ok (.flag b) => if b then "OK 1" else "OK 0"
  | .ok (.decoded c) => "OK " ++ channelsText c
  | .ok (.dimmed c) => "OK " ++ channelsText c
  | .ok (.stats v i) => "OK " ++ toString v ++ "," ++ toString i
  | .fail .invalidStartCode => "FAIL InvalidStartCode"
  | .fail .invalidAddress => "FAIL InvalidAddress"
  | .fail .nullArgument => "FAIL NullArgument"
  | .fail .reservedOperation => "FAIL ReservedOperation"

/-- `BYTES n, v`: BYTE `v`, `n` times (R96). -/
def bytesShorthand (n : Nat) (v : Byte) : List Instr := List.replicate n (.byte v)

/-- The level that a FRAME lists for channel `i`, 0 where it lists none (R96). -/
def listedLevel (levels : List (Nat × Byte)) (i : Nat) : Byte :=
  match levels with
  | [] => 0#8
  | (j, v) :: ls => if j = i then v else listedLevel ls i

/-- `FRAME sc, levels`: BREAK, then 513 BYTEs; the first carries `sc`, the (i+1)-th the level of channel `i` (R96). -/
def frameShorthand (sc : Byte) (levels : List (Nat × Byte)) : List Instr :=
  .brk :: .byte sc :: (List.range Config.nChannels).map (fun i => .byte (listedLevel levels (i + 1)))

/-- `POLL` (R96): the next operation, given the responses that this POLL has had so far, oldest first; none when it
has ended. ISAVAIL; after a 1 DECODE; after a success APPLYDIMMER of the decoded channels. -/
def pollShorthand : List Response → Option Instr
  | [] => some .isavail
  | [.ok (.flag true)] => some (.decode true)
  | [.ok (.flag true), .ok (.decoded c)] => some (.applydimmer true c)
  | _ => none

end Sys2Proof.Machine
end

