-- ==== Sys2Proof/Machine/Response.lean ====
section
/-! DEFINITION. The response word of format RSP (spec/30_encoding.md R88, R89). The machine's own responses are the
constructors of `Response`; this file gives their words. -/

namespace Sys2Proof.Machine

/-- The width of the `data` field: `max(40, 2 * CNT_W)` (R88), 64 for `CNT_W` = 32. -/
abbrev dataWidth (cntW : Nat) : Nat := max 40 (2 * cntW)

/-- The failure codes of R88. -/
def failCode : FailKind → BitVec 3
  | .invalidStartCode => 1#3
  | .invalidAddress => 2#3
  | .nullArgument => 3#3
  | .reservedOperation => 4#3

/-- The response data of R89; the bits not listed there are 0. -/
def responseData (cntW : Nat) : RspData → BitVec (dataWidth cntW)
  | .empty => 0#(dataWidth cntW)
  | .address a => (BitVec.ofNat 9 a.val).setWidth (dataWidth cntW)
  | .flag b => (BitVec.ofBool b).setWidth (dataWidth cntW)
  | .decoded c => (packChannels c).setWidth (dataWidth cntW)
  | .dimmed c => (packChannels c).setWidth (dataWidth cntW)
  | .stats v i => (BitVec.ofNat cntW i ++ BitVec.ofNat cntW v).setWidth (dataWidth cntW)

/-- The response word `ok, err, data` of R88. When `ok` is 0 the data bits are unspecified: they are the argument
`anyData`, which the caller leaves free (93_implementation_defined.md U4). -/
def responseWord (cntW : Nat) (anyData : BitVec (dataWidth cntW)) : Response → BitVec (1 + 3 + dataWidth cntW)
  | .ok d => 1#1 ++ 0#3 ++ responseData cntW d
  | .fail k => 0#1 ++ failCode k ++ anyData

end Sys2Proof.Machine
end

