-- ==== Sys2Proof/Safety.lean ====
section
/-! DEFINITION. What counts as a good state and a good run, in the terms the statements use: the invariant of
spec/10_state.md R33, the history of a run read from its trace, what a step leaves unchanged, and the duty of
the consumer to read in time (spec/70_reset_and_hazards.md R220). -/

namespace Sys2Proof.Machine

/-! ## What stays unchanged -/

/-- Every buffer index reads the same in `t` as in `s`. -/
def SameBuffer (s t : State) : Prop := ∀ i : Index, t.readByte i = s.readByte i

/-- `CUR` and `AVAIL` are the same. -/
def SameReceiver (s t : State) : Prop := t.cur = s.cur ∧ t.avail = s.avail

/-- `VALID` and `INVALID` are the same. -/
def SameCounters (s t : State) : Prop := t.valid = s.valid ∧ t.invalid = s.invalid

/-- The model's own fields other than the trace are the same: the parameters, the draw, and what the outside agents
have still to do. -/
def SameSetting (s t : State) : Prop :=
  t.cfg = s.cfg ∧ t.draw = s.draw ∧ t.events = s.events ∧ t.commands = s.commands ∧ t.turns = s.turns

/-! ## The invariant of R33 -/

/-- R33 as far as the types do not already say it. (I1) `CUR <= 513`, (I3) `1 <= ADDR <= 506` and (I4) a write index
of at most 512 are facts of the types `Cursor`, `BaseAddr` and `Index`; what is left is the canonical form of the
buffer, (I2) and the legal values of the counters (R20). -/
structure State.Inv (s : State) : Prop where
  buffer : Memory.wf s.buf
  availFull : s.avail = true → s.cur.val = Config.frameLen
  validLegal : s.valid < 2 ^ s.cfg.cntW
  invalidLegal : s.invalid < 2 ^ s.cfg.cntW

/-! ## The history of a run, read from the trace (newest entry first) -/

/-- An entry that puts the receiver back to `CUR = 0`: BREAK, INIT or the reset (R121, R210). -/
def Entry.rewinds : Entry → Bool
  | .took .brk => true
  | .took (.init _) => true
  | .resetTaken => true
  | _ => false

/-- The bytes delivered since the last BREAK, INIT or reset, in the order delivered (R81). -/
def frameSoFar : List Entry → List Byte
  | [] => []
  | e :: es =>
    if e.rewinds then []
    else
      match e with
      | .took (.byte d) => frameSoFar es ++ [d]
      | _ => frameSoFar es

/-- The announcement that is due: set by the byte that is the 513th since the last BREAK, INIT or reset, withdrawn by
each of those and by ISAVAIL (R23). -/
def announcementDue : List Entry → Bool
  | [] => false
  | e :: es =>
    if e.rewinds then false
    else
      match e with
      | .took (.byte _) => if (frameSoFar es).length + 1 = Config.frameLen then true else announcementDue es
      | .took .isavail => false
      | _ => announcementDue es

/-- An entry that clears the counters: RESETSTATS, INIT or the reset (R162). -/
def Entry.clearsCounters : Entry → Bool
  | .took .resetstats => true
  | .took (.init _) => true
  | .resetTaken => true
  | _ => false

/-- How many DECODEs succeeded since the counters were last cleared (R25). -/
def decodesOk : List Entry → Nat
  | [] => 0
  | e :: es =>
    if e.clearsCounters then 0
    else
      match e with
      | .response (.ok (.decoded _)) => decodesOk es + 1
      | _ => decodesOk es

/-- How many DECODEs found a start code other than 0 since the counters were last cleared (R26). -/
def decodesBad : List Entry → Nat
  | [] => 0
  | e :: es =>
    if e.clearsCounters then 0
    else
      match e with
      | .response (.fail .invalidStartCode) => decodesBad es + 1
      | _ => decodesBad es

/-- The number of `arm_next` pulses in a trace. -/
def armCount (es : List Entry) : Nat := es.countP (fun e => decide (e = .armNext))

/-- BYTE and INIT, the operations that pulse `arm_next` (R125, R170). -/
def Entry.arms : Entry → Bool
  | .took (.byte _) => true
  | .took (.init _) => true
  | _ => false

/-- The number of BYTE events and INIT operations in a trace. -/
def armingCount (es : List Entry) : Nat := es.countP Entry.arms

/-- What a counter of `w` bits shows after `n` increments from 0 (R163). -/
def counterShows (w : Nat) (ovf : Config.CntOvf) (n : Nat) : Nat :=
  match ovf with
  | .wrap => n % 2 ^ w
  | .saturate => min n (2 ^ w - 1)

/-- The state agrees with the history of the run: the cursor is the number of bytes delivered since the receiver was
last rewound, held at 513 (R22); every index below the cursor holds the byte delivered for it (R61, R81); the flag is
the announcement due (R23); (I6) pulses and arming operations balance (R33). -/
structure State.ReceiverHistory (s : State) : Prop where
  cursor : s.cur.val = min (frameSoFar s.trace).length Config.frameLen
  bytes : ∀ i : Index, i.val < s.cur.val → (frameSoFar s.trace)[i.val]? = some (s.readByte i)
  flag : s.avail = announcementDue s.trace
  pulses : armCount s.trace = armingCount s.trace

/-- The counters show the DECODE outcomes of the run since they were last cleared (R25, R26, R162). -/
structure State.CounterHistory (s : State) : Prop where
  valid : s.valid = counterShows s.cfg.cntW s.cfg.cntOvf (decodesOk s.trace)
  invalid : s.invalid = counterShows s.cfg.cntW s.cfg.cntOvf (decodesBad s.trace)

/-! ## Runs -/

/-- `n` steps from `s` lead to `t` (a finite prefix of a run, R15). -/
def Reaches : Nat → State → State → Prop
  | 0, s, t => s = t
  | n + 1, s, t => ∃ u, step s = .next u ∧ Reaches n u t

/-- The next step puts the receiver back to `CUR = 0`: it takes BREAK, INIT or the reset. -/
def rewindsNext (s : State) : Bool :=
  match nextAction s with
  | .reset _ => true
  | .run .brk _ => true
  | .run (.init _) _ => true
  | _ => false

/-- None of the first `n` steps from `s` is a BREAK, an INIT or a reset. -/
def neverRewinds : Nat → State → Bool
  | 0, _ => true
  | n + 1, s =>
    !rewindsNext s &&
      match step s with
      | .next t => neverRewinds n t
      | _ => true

/-- The buffer index that the next step stores to, if it is a BYTE in the Filling state (R123). -/
def storesNext (s : State) : Option Index :=
  match nextAction s with
  | .run (.byte _) t => fillIndex t.cur
  | _ => none

/-- The next step completes a frame: it stores the byte of index 512 and so raises the flag (R123, R129). -/
def completesNext (s : State) : Bool :=
  match storesNext s with
  | some i => isFull (nextCursor i)
  | none => false

/-- "no new frame completed" (R129 (d)): none of the first `n` steps from `s` completes a frame. -/
def completesNone : Nat → State → Bool
  | 0, _ => true
  | n + 1, s =>
    !completesNext s &&
      match step s with
      | .next t => completesNone n t
      | _ => true

/-- Index 0 or an index `A` to `A+4`: the six that a DECODE at base address `A` reads (R57). -/
def inWindow (a : BaseAddr) (i : Index) : Bool :=
  decide (i.val = 0) || (decide (a.val ≤ i.val) && decide (i.val ≤ a.val + 4))

/-- The next step stores to no index that a DECODE at base address `a` reads. -/
def quietNext (a : BaseAddr) (s : State) : Bool :=
  match storesNext s with
  | some i => !inWindow a i
  | none => true

/-- Duty 2 of the consumer (R145, R220): none of the first `n` steps from `s` stores to an index that a DECODE at
base address `a` reads. -/
def quietFor (a : BaseAddr) : Nat → State → Bool
  | 0, _ => true
  | n + 1, s =>
    quietNext a s &&
      match step s with
      | .next t => quietFor a n t
      | _ => true

/-- The turns of a DECODE (or of any row of consumer steps) with `ns` transport turns at its boundaries: a consumer
turn, then for each number of `ns` that many transport turns and another consumer turn. -/
def consumerTurns : List Nat → List Turn → List Turn
  | [], ts => .consumer :: ts
  | n :: ns, ts => .consumer :: (List.replicate n .transport ++ consumerTurns ns ts)

/-- The five channels of the window at base address `a`, as the buffer of `s` holds them (R52). -/
def windowOf (a : BaseAddr) (s : State) : Channels :=
  { red := s.readByte (windowIndex a 0), green := s.readByte (windowIndex a 1), blue := s.readByte (windowIndex a 2),
    dimmer := s.readByte (windowIndex a 3), flash := s.readByte (windowIndex a 4) }

end Sys2Proof.Machine
end

