-- ==== Sys2Proof/Certificates/Slice0/Obligations.lean ====
section
/-! DEFINITION. The statements for the provers. Each docstring names the rules of spec/ a statement formalises. -/

open Sys2Proof Sys2Proof.Machine

/-! ## Reset -/

/-- R34, R210: the registers right after reset are at the values the spec gives, no DECODE is in progress, and every
buffer index reads as its free value (log entry 1: the content is any byte). -/
def Obligations.ResetGivesRegisterValues : Prop :=
  State.reset.addr.val = 1 ∧ State.reset.cur.val = 0 ∧ State.reset.avail = false ∧ State.reset.valid = 0 ∧
    State.reset.invalid = 0 ∧ State.reset.progress = none ∧
    ∀ i : Index, State.reset.readByte i = Config.resetByte State.reset.draw i.val

/-- R210, R213: a step in which `rst` is asserted takes the reset state, whatever the state before; a DECODE in
progress is abandoned without a response, and there is no `arm_next`. That a run can hold such a step is the model's
own (log entry 6; 92_eei_decisions.md D22). -/
def Obligations.ResetStepRestoresRegisters : Prop :=
  ∀ (s : State) (ts : List Turn), s.turns = .rst :: ts →
    ∃ t, step s = .next t ∧ t.addr.val = 1 ∧ t.cur.val = 0 ∧ t.avail = false ∧ t.valid = 0 ∧ t.invalid = 0 ∧
      t.progress = none ∧ (∀ i : Index, t.readByte i = Config.resetByte (s.draw + 1) i.val) ∧
      t.trace = .resetTaken :: s.trace ∧ t.cfg = s.cfg ∧ t.events = s.events ∧ t.commands = s.commands ∧ t.turns = ts

/-! ## What one step is -/

/-- R12, R83, R187: at the transport's turn the step is the whole of the event operation that its next word encodes,
on the state with that word and that turn used up and the step entered in the trace. -/
def Obligations.StepRunsDeliveredEvent : Prop :=
  ∀ (s : State) (ts : List Turn) (w : EventWord) (es : List EventWord),
    s.turns = .transport :: ts → s.events = w :: es →
      (decodeEvent w).wellFormed .transport = true ∧
        step s = exec (decodeEvent w) ({ s with turns := ts, events := es }.record (.took (decodeEvent w)))

/-- R12, R84, R85: at the consumer's turn, with no DECODE in progress, the step is the operation that the consumer's
next word encodes, on the state with that word and that turn used up and the step entered in the trace. -/
def Obligations.StepRunsIssuedCommand : Prop :=
  ∀ (s : State) (ts : List Turn) (w : CommandWord) (cs : List CommandWord) (i : Instr),
    s.turns = .consumer :: ts → s.progress = none → s.commands = w :: cs → decodeCommand w = .op i →
      i.wellFormed .consumer = true ∧
        step s = exec i ({ s with turns := ts, commands := cs }.record (.took i))

/-- R92, R185: a command word whose code is 8 to 15 changes no state of the block, emits no `arm_next` and answers
`FAIL(ReservedOperation)`. That the model takes this answer of R92 instead of refusing the word, as R92 advises, is the
model's choice (log entry 7). -/
def Obligations.StepAnswersReservedCode : Prop :=
  ∀ (s : State) (ts : List Turn) (w : CommandWord) (cs : List CommandWord),
    s.turns = .consumer :: ts → s.progress = none → s.commands = w :: cs → 8 ≤ (opField w).toNat →
      ∃ t, step s = .next t ∧ SameBuffer s t ∧ SameReceiver s t ∧ t.addr = s.addr ∧ SameCounters s t ∧
        t.progress = none ∧ t.trace = .response (.fail .reservedOperation) :: .tookReserved (opField w) :: s.trace ∧
        t.cfg = s.cfg ∧ t.draw = s.draw ∧ t.events = s.events ∧ t.commands = cs ∧ t.turns = ts

/-- R12, R194, R197: while a DECODE is in progress the consumer's turn runs its next segment; no command word is
taken, and the buffer, the cursor, the flag and the address are as before. -/
def Obligations.ConsumerFinishesDecodeFirst : Prop :=
  ∀ (s : State) (ts : List Turn) (d : DecodeProgress), s.turns = .consumer :: ts → s.progress = some d →
    ∃ t, step s = .next t ∧ t.commands = s.commands ∧ t.events = s.events ∧ t.turns = ts ∧ SameBuffer s t ∧
      SameReceiver s t ∧ t.addr = s.addr ∧ t.cfg = s.cfg ∧ t.draw = s.draw ∧
      (t.trace = .resumed :: s.trace ∨ ∃ r, t.progress = none ∧ t.trace = .response r :: .resumed :: s.trace)

/-- R58, R141: each later segment of a DECODE reads its one byte from the buffer as it is in that step, at the
address sampled in the first; the start-code test counts a failure, the last segment counts a success and answers. The
order of the reads and the places of the boundaries are the spec's own choice D18 (log entry 17). -/
def Obligations.DecodeSegmentsReadCurrentBuffer : Prop :=
  ∀ (s : State) (ts : List Turn) (a : BaseAddr), s.turns = .consumer :: ts →
    (∀ start : Byte, s.progress = some (.startRead a start) → start ≠ 0#8 →
      ∃ t, step s = .next t ∧ t.progress = none ∧ t.valid = s.valid ∧
        t.invalid = incCounter s.cfg.cntW s.cfg.cntOvf s.invalid ∧
        t.trace = .response (.fail .invalidStartCode) :: .resumed :: s.trace) ∧
    (s.progress = some (.startRead a 0#8) →
      ∃ t, step s = .next t ∧ t.progress = some (.redRead a (s.readByte (windowIndex a 0))) ∧ SameCounters s t ∧
        t.trace = .resumed :: s.trace) ∧
    (∀ r : Byte, s.progress = some (.redRead a r) →
      ∃ t, step s = .next t ∧ t.progress = some (.greenRead a r (s.readByte (windowIndex a 1))) ∧ SameCounters s t ∧
        t.trace = .resumed :: s.trace) ∧
    (∀ r g : Byte, s.progress = some (.greenRead a r g) →
      ∃ t, step s = .next t ∧ t.progress = some (.blueRead a r g (s.readByte (windowIndex a 2))) ∧ SameCounters s t ∧
        t.trace = .resumed :: s.trace) ∧
    (∀ r g b : Byte, s.progress = some (.blueRead a r g b) →
      ∃ t, step s = .next t ∧ t.progress = some (.dimmerRead a r g b (s.readByte (windowIndex a 3))) ∧
        SameCounters s t ∧ t.trace = .resumed :: s.trace) ∧
    (∀ r g b d : Byte, s.progress = some (.dimmerRead a r g b d) →
      ∃ t, step s = .next t ∧ t.progress = none ∧ t.valid = incCounter s.cfg.cntW s.cfg.cntOvf s.valid ∧
        t.invalid = s.invalid ∧
        t.trace =
          .response (.ok (.decoded
            { red := r, green := g, blue := b, dimmer := d, flash := s.readByte (windowIndex a 4) })) ::
            .resumed :: s.trace)

/-- R14: every operation is enabled in every state, and no step stops. -/
def Obligations.EveryOperationIsEnabled : Prop :=
  (∀ (i : Instr) (s : State), ∃ t, exec i s = .next t) ∧ ∀ s : State, ∃ t, step s = .next t

/-! ## The receiver -/

/-- R122: an event word with `fe` = 1 is a BREAK; BREAK sets `CUR` and `AVAIL` to 0, whatever the state before, and
changes nothing else. That it pulses no `arm_next` and leaves the buffer is the spec's own choice
(92_eei_decisions.md D14), which the model follows (log entry 17). -/
def Obligations.BreakRewindsReceiver : Prop :=
  (∀ w : EventWord, w.getLsbD 8 = true → decodeEvent w = .brk) ∧
  ∀ s : State, ∃ t, exec .brk s = .next t ∧ t.cur.val = 0 ∧ t.avail = false ∧
    SameBuffer s t ∧ t.addr = s.addr ∧ SameCounters s t ∧ t.progress = s.progress ∧ t.trace = s.trace ∧
    SameSetting s t

/-- R123: an event word with `fe` = 0 is a BYTE of its low eight bits. In the Filling state BYTE stores the byte at the
cursor and at no other index, advances the cursor, and raises `AVAIL` exactly when the new cursor is 513; in the Full
state it is discarded silently; in both it pulses `arm_next` once and changes nothing else. -/
def Obligations.ByteStoresOrIsDiscarded : Prop :=
  (∀ w : EventWord, w.getLsbD 8 = false → decodeEvent w = .byte (w.extractLsb' 0 8)) ∧
  ∀ (d : Byte) (s : State), ∃ t, exec (.byte d) s = .next t ∧
    (s.cur.val < 513 → t.cur.val = s.cur.val + 1 ∧
      (∀ i : Index, t.readByte i = if i.val = s.cur.val then d else s.readByte i) ∧
      t.avail = (if s.cur.val = 512 then true else s.avail)) ∧
    (s.cur.val = 513 → SameReceiver s t ∧ SameBuffer s t) ∧
    t.addr = s.addr ∧ SameCounters s t ∧ t.progress = s.progress ∧ t.trace = .armNext :: s.trace ∧ SameSetting s t

/-- R127: code 0x3 is ISAVAIL; ISAVAIL answers the flag as it was and clears it, in one step (the spec's own choice D17,
log entry 17); nothing else changes. -/
def Obligations.IsavailTestsAndClears : Prop :=
  (∀ w : CommandWord, opField w = 0x3#4 → decodeCommand w = .op .isavail) ∧
  ∀ s : State, ∃ t, exec .isavail s = .next t ∧ t.avail = false ∧ t.cur = s.cur ∧ SameBuffer s t ∧
    t.addr = s.addr ∧ SameCounters s t ∧ t.progress = s.progress ∧
    t.trace = .response (.ok (.flag s.avail)) :: s.trace ∧ SameSetting s t

/-- R59, R127: of two ISAVAILs with nothing between them the second answers 0. -/
def Obligations.SecondIsavailAnswersZero : Prop :=
  ∀ s : State, ∃ t u, exec .isavail s = .next t ∧ exec .isavail t = .next u ∧
    u.trace = .response (.ok (.flag false)) :: .response (.ok (.flag s.avail)) :: s.trace

/-! ## The address register -/

/-- R110: code 0x1 is SETADDR of `arg[15:0]`; SETADDR with a value in 1 to 506 stores it and answers OK; with 0 or a
value above 506 it answers `FAIL(InvalidAddress)` and leaves the address; nothing else changes. -/
def Obligations.SetaddrStoresLegalAddressOnly : Prop :=
  (∀ w : CommandWord, opField w = 0x1#4 → decodeCommand w = .op (.setaddr (addrField w))) ∧
  ∀ (v : AddrOperand) (s : State), ∃ t, exec (.setaddr v) s = .next t ∧
    (1 ≤ v.toNat ∧ v.toNat ≤ 506 → t.addr.val = v.toNat ∧ t.trace = .response (.ok .empty) :: s.trace) ∧
    (v.toNat = 0 ∨ 506 < v.toNat → t.addr = s.addr ∧ t.trace = .response (.fail .invalidAddress) :: s.trace) ∧
    SameReceiver s t ∧ SameBuffer s t ∧ SameCounters s t ∧ t.progress = s.progress ∧ SameSetting s t

/-- R111: code 0x2 is GETADDR; GETADDR answers the address and changes nothing; the address is 1 at reset, and from
there every step that takes neither a SETADDR nor an INIT keeps it 1: it "defaults to 1 until explicitly set". -/
def Obligations.GetaddrAnswersAddress : Prop :=
  (∀ w : CommandWord, opField w = 0x2#4 → decodeCommand w = .op .getaddr) ∧
  (∀ s : State, ∃ t, exec .getaddr s = .next t ∧ t.addr = s.addr ∧ SameReceiver s t ∧ SameBuffer s t ∧
    SameCounters s t ∧ t.progress = s.progress ∧ t.trace = .response (.ok (.address s.addr)) :: s.trace ∧
    SameSetting s t) ∧
  State.reset.addr.val = 1 ∧
  ∀ s t : State, s.addr.val = 1 → step s = .next t → (∀ v u, nextAction s ≠ .run (.setaddr v) u) →
    (∀ v u, nextAction s ≠ .run (.init v) u) → t.addr.val = 1

/-- R112: after SETADDR with a legal value GETADDR answers that value; with any other it answers the address held
before. -/
def Obligations.SetThenGetAddress : Prop :=
  ∀ (v : AddrOperand) (s : State), ∃ t u a, exec (.setaddr v) s = .next t ∧ exec .getaddr t = .next u ∧
    u.trace.head? = some (.response (.ok (.address a))) ∧
    (1 ≤ v.toNat ∧ v.toNat ≤ 506 → a.val = v.toNat ∧ t.trace.head? = some (.response (.ok .empty))) ∧
    (¬ (1 ≤ v.toNat ∧ v.toNat ≤ 506) →
      a = s.addr ∧ t.addr = s.addr ∧ t.trace.head? = some (.response (.fail .invalidAddress)))

/-! ## Initialisation -/

/-- R170: code 0x0 is INIT of `arg[15:0]`; INIT puts every register at its reset value and pulses `arm_next` once; with
a value in 1 to 506 it then stores it and answers OK, with any other it leaves address 1 and answers
`FAIL(InvalidAddress)`; the buffer is not written. Every part of R170 is the spec's own choice D23, taken whole by the
model (log entry 8). -/
def Obligations.InitResetsThenSetsAddress : Prop :=
  (∀ w : CommandWord, opField w = 0x0#4 → decodeCommand w = .op (.init (addrField w))) ∧
  ∀ (v : AddrOperand) (s : State), ∃ t, exec (.init v) s = .next t ∧
    t.cur.val = 0 ∧ t.avail = false ∧ t.valid = 0 ∧ t.invalid = 0 ∧
    (1 ≤ v.toNat ∧ v.toNat ≤ 506 →
      t.addr.val = v.toNat ∧ t.trace = .response (.ok .empty) :: .armNext :: s.trace) ∧
    (v.toNat = 0 ∨ 506 < v.toNat →
      t.addr.val = 1 ∧ t.trace = .response (.fail .invalidAddress) :: .armNext :: s.trace) ∧
    SameBuffer s t ∧ t.progress = s.progress ∧ SameSetting s t

/-! ## The decoder -/

/-- R140, R141: code 0x4 is DECODE of the present bit; the first segment of a DECODE with the destination present
samples `ADDR`, reads `BUF[0]`, and changes nothing else. That the address is sampled once, in the segment that reads
the start code, is the spec's own choice D18 (log entry 17). -/
def Obligations.DecodeSamplesAddressAndStartCode : Prop :=
  (∀ w : CommandWord, opField w = 0x4#4 → decodeCommand w = .op (.decode (presentField w))) ∧
  ∀ s : State, ∃ t, exec (.decode true) s = .next t ∧
    t.progress = some (.startRead s.addr (s.readByte startIndex)) ∧ t.addr = s.addr ∧ SameReceiver s t ∧
    SameBuffer s t ∧ SameCounters s t ∧ t.trace = s.trace ∧ SameSetting s t

/-- R143: DECODE with the destination absent answers `FAIL(NullArgument)` and changes nothing, whatever the start
code is. -/
def Obligations.DecodeNullChangesNothing : Prop :=
  ∀ s : State, ∃ t, exec (.decode false) s = .next t ∧ t.progress = s.progress ∧ t.addr = s.addr ∧
    SameReceiver s t ∧ SameBuffer s t ∧ SameCounters s t ∧
    t.trace = .response (.fail .nullArgument) :: s.trace ∧ SameSetting s t

/-- R145, R146: a DECODE run to its end, with any number of transport turns at each of its five boundaries none of
which stores to an index it reads, answers the window as its first step saw it and counts one success. The five
boundaries are the spec's own choice D18 (log entry 17). -/
def Obligations.QuietDecodeReturnsWindow : Prop :=
  ∀ (s : State) (w : CommandWord) (cs : List CommandWord) (ns : List Nat) (ts : List Turn),
    s.progress = none → s.commands = w :: cs → decodeCommand w = .op (.decode true) → ns.length = 5 →
    s.turns = consumerTurns ns ts → quietFor s.addr (ns.sum + 6) s = true → s.readByte startIndex = 0#8 →
      ∃ t, Reaches (ns.sum + 6) s t ∧ t.trace.head? = some (.response (.ok (.decoded (windowOf s.addr s)))) ∧
        t.valid = incCounter s.cfg.cntW s.cfg.cntOvf s.valid ∧ t.invalid = s.invalid ∧ t.progress = none ∧
        t.addr = s.addr ∧ t.commands = cs ∧ t.turns = ts

/-- R145, R146: the same of a DECODE that finds another start code: it ends at its first boundary, answers
`FAIL(InvalidStartCode)` and counts one failure. The place of the boundary is the spec's own choice D18 (log entry
17). -/
def Obligations.DecodeRejectsBadStartCode : Prop :=
  ∀ (s : State) (w : CommandWord) (cs : List CommandWord) (n : Nat) (ts : List Turn),
    s.progress = none → s.commands = w :: cs → decodeCommand w = .op (.decode true) →
    s.turns = consumerTurns [n] ts → s.readByte startIndex ≠ 0#8 →
      ∃ t, Reaches (n + 2) s t ∧ t.trace.head? = some (.response (.fail .invalidStartCode)) ∧
        t.valid = s.valid ∧ t.invalid = incCounter s.cfg.cntW s.cfg.cntOvf s.invalid ∧ t.progress = none ∧
        t.addr = s.addr ∧ t.commands = cs ∧ t.turns = ts

/-- R33 (I3), R52, R53: whatever the address, field `k` of the window is at index `ADDR + k`, computed without
wrap-around, and that index is 1 to 510. -/
def Obligations.WindowStaysInsideBuffer : Prop :=
  ∀ (a : BaseAddr) (k : Fin Config.footprint), (windowIndex a k).val = a.val + k.val ∧
    1 ≤ (windowIndex a k).val ∧ (windowIndex a k).val ≤ 510

/-! ## The compositor -/

/-- R150, R151, R152: code 0x5 is APPLYDIMMER of the present bit and the packed channels; with the argument present it
answers the scaled channels, with dimmer and flash passed through; with it absent it answers `FAIL(NullArgument)`,
whatever the operand bits are; it changes nothing, and its answer depends on its operands alone. -/
def Obligations.ApplydimmerScalesColours : Prop :=
  (∀ w : CommandWord, opField w = 0x5#4 →
    decodeCommand w = .op (.applydimmer (presentField w) (unpackChannels (argField w)))) ∧
  (∀ c : Channels, ∃ o : Channels,
    o.red.toNat = c.red.toNat * c.dimmer.toNat / 255 ∧ o.green.toNat = c.green.toNat * c.dimmer.toNat / 255 ∧
    o.blue.toNat = c.blue.toNat * c.dimmer.toNat / 255 ∧ o.dimmer = c.dimmer ∧ o.flash = c.flash ∧
    ∀ s : State, ∃ t, exec (.applydimmer true c) s = .next t ∧ t.trace = .response (.ok (.dimmed o)) :: s.trace ∧
      SameReceiver s t ∧ SameBuffer s t ∧ t.addr = s.addr ∧ SameCounters s t ∧ t.progress = s.progress ∧
      SameSetting s t) ∧
  ∀ (c : Channels) (s : State), ∃ t, exec (.applydimmer false c) s = .next t ∧
    t.trace = .response (.fail .nullArgument) :: s.trace ∧ SameReceiver s t ∧ SameBuffer s t ∧ t.addr = s.addr ∧
    SameCounters s t ∧ t.progress = s.progress ∧ SameSetting s t

/-- R154: the five facts about the scaled value. -/
def Obligations.ScaledColourFacts : Prop :=
  ∀ c d : Byte,
    ((scaleByte c d).toNat ≤ min c.toNat d.toNat) ∧
    (scaleByte c d = c ↔ d = 255#8 ∨ c = 0#8) ∧
    (scaleByte c d = 0#8 ↔ c.toNat * d.toNat < 255) ∧
    scaleByte c d = scaleByte d c ∧
    (∀ c' d' : Byte, c.toNat ≤ c'.toNat → d.toNat ≤ d'.toNat → (scaleByte c d).toNat ≤ (scaleByte c' d').toNat)

/-- R153: 16 bits hold every product exactly, so the law computed on 16-bit words gives the same byte. -/
def Obligations.SixteenBitProductSuffices : Prop :=
  ∀ c d : Byte, scaleByte c d = ((c.setWidth 16 : Product) * d.setWidth 16 / 255#16).setWidth 8

/-- R155: the division by 255 without a divider. -/
def Obligations.DivisionByShifts : Prop :=
  ∀ c d : Byte, (scaleByte c d).toNat = (c.toNat * d.toNat + 1 + ((c.toNat * d.toNat) >>> 8)) >>> 8

/-! ## The counters -/

/-- R160: code 0x6 is GETSTATS; GETSTATS answers both counters and changes nothing. -/
def Obligations.GetstatsAnswersBothCounters : Prop :=
  (∀ w : CommandWord, opField w = 0x6#4 → decodeCommand w = .op .getstats) ∧
  ∀ s : State, ∃ t, exec .getstats s = .next t ∧ t.trace = .response (.ok (.stats s.valid s.invalid)) :: s.trace ∧
    SameReceiver s t ∧ SameBuffer s t ∧ t.addr = s.addr ∧ SameCounters s t ∧ t.progress = s.progress ∧
    SameSetting s t

/-- R161: code 0x7 is RESETSTATS; RESETSTATS sets both counters to 0, answers OK, and changes nothing else. -/
def Obligations.ResetstatsClearsBothCounters : Prop :=
  (∀ w : CommandWord, opField w = 0x7#4 → decodeCommand w = .op .resetstats) ∧
  ∀ s : State, ∃ t, exec .resetstats s = .next t ∧ t.valid = 0 ∧ t.invalid = 0 ∧
    t.trace = .response (.ok .empty) :: s.trace ∧ SameReceiver s t ∧ SameBuffer s t ∧ t.addr = s.addr ∧
    t.progress = s.progress ∧ SameSetting s t

/-- R163: the increment of a counter of `w` bits, in its three cases; the block that the spec takes has 32-bit counters
that wrap. -/
def Obligations.CounterIncrementCases : Prop :=
  (∀ (w x : Nat),
    (∀ ovf, x < 2 ^ w - 1 → incCounter w ovf x = x + 1) ∧
    (x = 2 ^ w - 1 → incCounter w .wrap x = 0) ∧
    (x = 2 ^ w - 1 → incCounter w .saturate x = 2 ^ w - 1)) ∧
  State.reset.cfg.cntW = 32 ∧ State.reset.cfg.cntOvf = .wrap

/-- R163: below the greatest value the two overflow settings agree, and a counter shows exactly how often it was
incremented. -/
def Obligations.OverflowSettingsAgreeBelowMaximum : Prop :=
  ∀ (w n : Nat) (ovf : Config.CntOvf), n ≤ 2 ^ w - 1 → (fun x => incCounter w ovf x)^[n] 0 = n

/-! ## Encodings -/

/-- R83 to R93: reading the word of any operation gives the operation back, with every operand. -/
def Obligations.DecodeInvertsEncode : Prop := ∀ i : Instr, decode (encode i) = .op i

/-- R93: command words that agree in `op`, in `p` where DECODE or APPLYDIMMER uses it, in `arg[15:0]` where INIT or
SETADDR uses it, and in `arg` where APPLYDIMMER uses it, are read alike; so are two BREAK words. -/
def Obligations.IgnoredBitsPlayNoPart : Prop :=
  (∀ w v : CommandWord, opField w = opField v →
    ((opField w = 4#4 ∨ opField w = 5#4) → presentField w = presentField v) →
    ((opField w = 0#4 ∨ opField w = 1#4) → addrField w = addrField v) →
    (opField w = 5#4 → argField w = argField v) → decodeCommand w = decodeCommand v) ∧
  (∀ w v : EventWord, w.getLsbD 8 = true → v.getLsbD 8 = true → decodeEvent w = decodeEvent v)

/-- R85, R90, R92: a command word is reserved exactly when its code is 8 to 15; a word with any other code is an
operation of the consumer port, and an event word is always one of the transport port. -/
def Obligations.OnlyCodesEightToFifteenAreReserved : Prop :=
  (∀ w : CommandWord, 8 ≤ (opField w).toNat → decodeCommand w = .reserved (opField w)) ∧
  (∀ w : CommandWord, (opField w).toNat < 8 → ∃ i : Instr, decodeCommand w = .op i ∧ i.wellFormed .consumer = true) ∧
  (∀ w : EventWord, (decodeEvent w).wellFormed .transport = true)

/-- R83 to R89, spec/95_test_vectors.md: some words written out from the tables, one for each operation. -/
def Obligations.SampleWordsDecode : Prop :=
  decode (.ev 0x1FF#9) = .op .brk ∧
  decode (.ev 0x0C8#9) = .op (.byte 0xC8#8) ∧
  decode (.cmd 0x00000000000A#48) = .op (.init 10#16) ∧
  decode (.cmd 0x1EFFFFFF000A#48) = .op (.setaddr 10#16) ∧
  decode (.cmd 0x200000000000#48) = .op .getaddr ∧
  decode (.cmd 0x300000000000#48) = .op .isavail ∧
  decode (.cmd 0x410000000000#48) = .op (.decode true) ∧
  decode (.cmd 0x400000000000#48) = .op (.decode false) ∧
  decode (.cmd 0x5107806496C8#48) = .op (.applydimmer true ⟨200#8, 150#8, 100#8, 128#8, 7#8⟩) ∧
  decode (.cmd 0x600000000000#48) = .op .getstats ∧
  decode (.cmd 0x700000000000#48) = .op .resetstats ∧
  decode (.cmd 0xF00000000000#48) = .reserved 15#4

/-- R88, R89: the response word, for every counter width and whatever the unspecified bits are: `ok`, `err` with the
code of each failure kind, and for each operation where its data stands, every other data bit of a success being 0. -/
def Obligations.ResponseWordFields : Prop :=
  ∀ (w : Nat) (x : BitVec (dataWidth w)), dataWidth w = max 40 (2 * w) ∧
    (∀ d : RspData, (responseWord w x (.ok d)).getLsbD (3 + dataWidth w) = true ∧
      (responseWord w x (.ok d)).extractLsb' (dataWidth w) 3 = 0#3) ∧
    (∀ k : FailKind, (responseWord w x (.fail k)).getLsbD (3 + dataWidth w) = false) ∧
    (responseWord w x (.fail .invalidStartCode)).extractLsb' (dataWidth w) 3 = 1#3 ∧
    (responseWord w x (.fail .invalidAddress)).extractLsb' (dataWidth w) 3 = 2#3 ∧
    (responseWord w x (.fail .nullArgument)).extractLsb' (dataWidth w) 3 = 3#3 ∧
    (responseWord w x (.fail .reservedOperation)).extractLsb' (dataWidth w) 3 = 4#3 ∧
    -- no data
    (∀ k, k < dataWidth w → (responseWord w x (.ok .empty)).getLsbD k = false) ∧
    -- `data[8:0] = ADDR`
    (∀ a : BaseAddr, ((responseWord w x (.ok (.address a))).extractLsb' 0 9).toNat = a.val ∧
      ∀ k, 9 ≤ k → k < dataWidth w → (responseWord w x (.ok (.address a))).getLsbD k = false) ∧
    -- `data[0]`, the flag
    (∀ b : Bool, (responseWord w x (.ok (.flag b))).getLsbD 0 = b ∧
      ∀ k, 1 ≤ k → k < dataWidth w → (responseWord w x (.ok (.flag b))).getLsbD k = false) ∧
    -- the five channels of DECODE and of APPLYDIMMER
    (∀ (c : Channels) (d : RspData), d = .decoded c ∨ d = .dimmed c →
      (responseWord w x (.ok d)).extractLsb' 0 8 = c.red ∧ (responseWord w x (.ok d)).extractLsb' 8 8 = c.green ∧
      (responseWord w x (.ok d)).extractLsb' 16 8 = c.blue ∧ (responseWord w x (.ok d)).extractLsb' 24 8 = c.dimmer ∧
      (responseWord w x (.ok d)).extractLsb' 32 8 = c.flash ∧
      ∀ k, 40 ≤ k → k < dataWidth w → (responseWord w x (.ok d)).getLsbD k = false) ∧
    -- `data[CNT_W-1:0] = VALID`, `data[2*CNT_W-1:CNT_W] = INVALID`
    (∀ v i : Nat, v < 2 ^ w → i < 2 ^ w →
      ((responseWord w x (.ok (.stats v i))).extractLsb' 0 w).toNat = v ∧
      ((responseWord w x (.ok (.stats v i))).extractLsb' w w).toNat = i ∧
      ∀ k, 2 * w ≤ k → k < dataWidth w → (responseWord w x (.ok (.stats v i))).getLsbD k = false)

/-- R89: the low 40 data bits of a DECODE response, put unchanged behind the code and present bit of APPLYDIMMER, are
an APPLYDIMMER of the decoded channels. -/
def Obligations.DecodedChannelsFeedDimmer : Prop :=
  ∀ (w : Nat) (c : Channels),
    decodeCommand (commandWord 0x5#4 true ((responseData w (.decoded c)).setWidth 40)) = .op (.applydimmer true c)

/-! ## Invariants -/

/-- R33 at reset. -/
def Obligations.ResetSatisfiesInvariant : Prop := State.reset.Inv

/-- R33: every step keeps the invariant. -/
def Obligations.StepKeepsInvariant : Prop := ∀ s t : State, s.Inv → step s = .next t → t.Inv

/-- The receiver and the counters agree with the empty history at reset. -/
def Obligations.ResetAgreesWithHistory : Prop := State.reset.ReceiverHistory ∧ State.reset.CounterHistory

/-- R22, R23, R33 (I6), R81, R121: in every step the cursor, the stored bytes, the flag and the number of pulses stay
what the history of events says they are. That a BREAK does not pulse is the spec's own choice D14 (log entry
17), that an INIT does is D24 (log entry 8). -/
def Obligations.StepKeepsReceiverHistory : Prop :=
  ∀ s t : State, s.ReceiverHistory → step s = .next t → t.ReceiverHistory

/-- R25, R26, R162: in every step the counters stay the numbers of DECODE outcomes since they were last cleared, for
every counter width and both overflow settings. -/
def Obligations.StepKeepsCounterHistory : Prop :=
  ∀ s t : State, s.CounterHistory → step s = .next t → t.CounterHistory

/-- R61: whenever the flag is set, all 513 bytes of the frame are in the buffer. -/
def Obligations.AnnouncedFrameIsWhole : Prop :=
  ∀ s : State, s.Inv → s.ReceiverHistory → s.avail = true →
    513 ≤ (frameSoFar s.trace).length ∧ ∀ i : Index, (frameSoFar s.trace)[i.val]? = some (s.readByte i)

/-! ## Whole-machine rules -/

/-- R21: an index reads differently after a step only if the step was the BYTE that stored there, or a reset. -/
def Obligations.OnlyByteChangesBuffer : Prop :=
  ∀ (s t : State) (i : Index), step s = .next t → t.readByte i ≠ s.readByte i →
    storesNext s = some i ∨ ∃ ts, s.turns = .rst :: ts

/-- R23: the flag goes from 0 to 1 only in the step that stores the byte of index 512. -/
def Obligations.FlagRisesOnlyAtLastByte : Prop :=
  ∀ s t : State, step s = .next t → s.avail = false → t.avail = true →
    s.cur.val = 512 ∧ t.cur.val = 513 ∧ ∃ i : Index, storesNext s = some i ∧ i.val = 512

/-- R27: an event operation changes no register of the consumer, counts nothing and disturbs no DECODE in progress. -/
def Obligations.EventsLeaveConsumerRegisters : Prop :=
  ∀ (i : Instr) (s t : State), i.port = .transport → exec i s = .next t →
    t.addr = s.addr ∧ SameCounters s t ∧ t.progress = s.progress ∧ SameSetting s t

/-- R27, R195: a consumer operation writes no byte of the buffer, never sets the flag, and, unless it is INIT, leaves
the cursor. -/
def Obligations.ConsumerLeavesReceiverState : Prop :=
  ∀ (i : Instr) (s t : State), i.port = .consumer → exec i s = .next t →
    SameBuffer s t ∧ (t.avail = true → s.avail = true) ∧ ((∀ v, i ≠ .init v) → t.cur = s.cur)

/-- R24: the address changes only by a SETADDR or an INIT, or a reset. -/
def Obligations.AddressChangesOnlyBySetaddrOrInit : Prop :=
  ∀ s t : State, step s = .next t → t.addr ≠ s.addr →
    (∃ v u, nextAction s = .run (.setaddr v) u) ∨ (∃ v u, nextAction s = .run (.init v) u) ∨
      ∃ ts, s.turns = .rst :: ts

/-- R27, R160, R228: an event and a consumer operation on registers that only the consumer has can be taken in either
order: the response is the same, and so is the state but for the order of the trace. -/
def Obligations.EventsCommuteWithConsumerRegisters : Prop :=
  ∀ (e c : Instr) (s : State), e.port = .transport →
    ((∃ v, c = .setaddr v) ∨ c = .getaddr ∨ (∃ p ch, c = .applydimmer p ch) ∨ c = .getstats ∨ c = .resetstats) →
      ∃ t u t' u' r, exec e s = .next t ∧ exec c t = .next u ∧ exec c s = .next t' ∧ exec e t' = .next u' ∧
        u.trace = .response r :: t.trace ∧ t'.trace = .response r :: s.trace ∧
        { u with trace := [] } = { u' with trace := [] }

/-! ## Runs -/

/-- R81, R126, R129: a BREAK and then any number of BYTEs. The cursor is their number, held at 513; the flag is set
exactly when there were at least 513; index `i` holds the (i+1)-th byte, bytes after the 513th are stored nowhere, and
the other indices keep what they held; each BYTE pulses `arm_next` once, and the BREAK does not (the spec's own choice
D14, log entry 17). -/
def Obligations.BreakThenBytesFillsInOrder : Prop :=
  ∀ (s : State) (w : EventWord) (ws : List EventWord) (bs : List Byte) (es : List EventWord) (ts : List Turn),
    s.events = w :: (ws ++ es) → decodeEvent w = .brk → ws.map decodeEvent = bs.map .byte →
    s.turns = List.replicate (bs.length + 1) .transport ++ ts →
      ∃ t, Reaches (bs.length + 1) s t ∧ t.cur.val = min bs.length 513 ∧
        t.avail = decide (513 ≤ bs.length) ∧
        (∀ i : Index, t.readByte i = (bs[i.val]?).getD (s.readByte i)) ∧
        armCount t.trace = armCount s.trace + bs.length ∧ t.addr = s.addr ∧ SameCounters s t ∧
        t.events = es ∧ t.turns = ts

/-- R33 (I5), R126, R128: from a Full receiver, a run of any length and any interleaving without BREAK, INIT or reset
leaves the cursor at 513 and the buffer unchanged, and never sets the flag again. -/
def Obligations.FullReceiverHoldsFrame : Prop :=
  ∀ (n : Nat) (s t : State), s.cur.val = 513 → neverRewinds n s = true → Reaches n s t →
    t.cur.val = 513 ∧ SameBuffer s t ∧ (t.avail = true → s.avail = true)

/-- R62: a consumer that polls while a frame is announced and then decodes, with any transport turns between its seven
steps none of which stores to an index it reads, is told of the frame and gets the bytes of the announced frame.
The seven steps are the spec's own choices D17 and D18 (log entry 17). -/
def Obligations.PollInTimeReturnsAnnouncedFrame : Prop :=
  ∀ (s : State) (v w : CommandWord) (cs : List CommandWord) (ns : List Nat) (ts : List Turn),
    s.Inv → s.ReceiverHistory → s.avail = true → s.progress = none → s.commands = v :: w :: cs →
    decodeCommand v = .op .isavail → decodeCommand w = .op (.decode true) → ns.length = 6 →
    s.turns = consumerTurns ns ts → quietFor s.addr (ns.sum + 7) s = true →
    (frameSoFar s.trace)[0]? = some 0#8 →
      ∃ u t c, step s = .next u ∧ u.trace.head? = some (.response (.ok (.flag true))) ∧
        Reaches (ns.sum + 6) u t ∧ t.trace.head? = some (.response (.ok (.decoded c))) ∧
        (frameSoFar s.trace)[s.addr.val]? = some c.red ∧ (frameSoFar s.trace)[s.addr.val + 1]? = some c.green ∧
        (frameSoFar s.trace)[s.addr.val + 2]? = some c.blue ∧ (frameSoFar s.trace)[s.addr.val + 3]? = some c.dimmer ∧
        (frameSoFar s.trace)[s.addr.val + 4]? = some c.flash

/-- R62: in any run without a reset from a state in which a frame is announced, an index reads as the byte delivered
for THAT index, in the announced frame (`during` empty) or in a frame of the run as it stood at some later point of the
run: never as an older byte, as a byte of another index, or as a discarded byte. -/
def Obligations.ReadsAnnouncedFrameOrNewer : Prop :=
  ∀ (n : Nat) (s t : State), s.Inv → s.ReceiverHistory → s.avail = true → .rst ∉ s.turns → Reaches n s t →
    ∀ i : Index, ∃ later during, t.trace = later ++ during ++ s.trace ∧
      (frameSoFar (during ++ s.trace))[i.val]? = some (t.readByte i)

/-- R96: the shorthand FRAME is a BREAK and 513 BYTEs: the start code first, then for each channel the level listed for
it, and 0 where none is listed. Of a channel listed twice it takes the first level (the model's choice, log
entry 20). -/
def Obligations.FrameShorthandIsWholeFrame : Prop :=
  ∀ (sc : Byte) (levels : List (Nat × Byte)), ∃ bs : List Byte, frameShorthand sc levels = .brk :: bs.map .byte ∧
    bs.length = 513 ∧ bs[0]? = some sc ∧ ∀ i, 1 ≤ i → i ≤ 512 →
      (∀ before v rest, levels = before ++ (i, v) :: rest → (∀ u, (i, u) ∉ before) → bs[i]? = some v) ∧
      ((∀ u, (i, u) ∉ levels) → bs[i]? = some 0#8)

/-- R129: the laws of the receiver. (a) After BREAK `CUR` and `AVAIL` are 0, whatever the state before. (b) After a
BREAK and `n` BYTEs, with no ISAVAIL between, the flag is set exactly when `n` is at least 513: it rises once, at the
513th, and 512 leave it 0. (c) 600 BYTEs leave the flag set, `CUR` at 513 and index `i` at the (i+1)-th byte, so the
bytes after the 513th are stored nowhere. (d) With the flag set ISAVAIL answers 1, and the next ISAVAIL answers 0
whatever run comes between, as long as no step of it completes a frame. -/
def Obligations.ReceiverTestableLaws : Prop :=
  (∀ s : State, ∃ t, exec .brk s = .next t ∧ t.cur.val = 0 ∧ t.avail = false) ∧
  (∀ (s : State) (w : EventWord) (ws : List EventWord) (bs : List Byte) (es : List EventWord) (ts : List Turn),
    s.events = w :: (ws ++ es) → decodeEvent w = .brk → ws.map decodeEvent = bs.map .byte →
    s.turns = List.replicate (bs.length + 1) .transport ++ ts →
      (∀ n, n ≤ bs.length → ∃ t, Reaches (n + 1) s t ∧ t.avail = decide (513 ≤ n)) ∧
      (bs.length = 600 → ∃ t, Reaches 601 s t ∧ t.avail = true ∧ t.cur.val = 513 ∧
        ∀ i : Index, bs[i.val]? = some (t.readByte i))) ∧
  (∀ s : State, s.avail = true → ∃ t, exec .isavail s = .next t ∧
    t.trace = .response (.ok (.flag true)) :: s.trace ∧
    ∀ n u, completesNone n t = true → Reaches n t u →
      ∃ v, exec .isavail u = .next v ∧ v.trace = .response (.ok (.flag false)) :: u.trace)
end

