-- ==== Sys2Proof/Laws/Decode.lean ====
section
/-! SUPPORT. The fields of a written command word, of a written event word and of packed channels read back as
written. -/

namespace Sys2Proof

@[simp] theorem opField_commandWord (op : OpCode) (p : Bool) (arg : CommandArg) :
    opField (commandWord op p arg) = op := by
  apply BitVec.eq_of_getLsbD_eq
  intro i hi
  show (BitVec.extractLsb' 44 4 (n := 4 + 3 + 1 + 40) (op ++ 0#3 ++ BitVec.ofBool p ++ arg)).getLsbD i = _
  simp only [BitVec.getLsbD_extractLsb', BitVec.getLsbD_append, hi, decide_true, Bool.true_and]
  rw [if_neg (by omega), if_neg (by omega), if_neg (by omega)]
  congr 1
  omega

@[simp] theorem presentField_commandWord (op : OpCode) (p : Bool) (arg : CommandArg) :
    presentField (commandWord op p arg) = p := by
  show BitVec.getLsbD (w := 4 + 3 + 1 + 40) (op ++ 0#3 ++ BitVec.ofBool p ++ arg) 40 = p
  rw [BitVec.getLsbD_append, if_neg (by omega), BitVec.getLsbD_append, if_pos (by omega)]
  simp

@[simp] theorem argField_commandWord (op : OpCode) (p : Bool) (arg : CommandArg) :
    argField (commandWord op p arg) = arg := by
  apply BitVec.eq_of_getLsbD_eq
  intro i hi
  show (BitVec.extractLsb' 0 40 (n := 4 + 3 + 1 + 40) (op ++ 0#3 ++ BitVec.ofBool p ++ arg)).getLsbD i = _
  simp only [BitVec.getLsbD_extractLsb', BitVec.getLsbD_append, hi, decide_true, Bool.true_and, Nat.zero_add,
    if_true]

/-- The address operand is the low 16 bits of `arg` (R86). -/
@[simp] theorem addrField_commandWord (op : OpCode) (p : Bool) (a : AddrOperand) :
    addrField (commandWord op p (a.setWidth 40)) = a := by
  unfold addrField
  rw [argField_commandWord]
  apply BitVec.eq_of_toNat_eq
  have := a.isLt
  simp only [BitVec.extractLsb'_toNat, BitVec.toNat_setWidth]
  omega

/-- Bit 8 of an event word is `fe` (R83). -/
@[simp] theorem eventWord_fe (fe : Bool) (d : Byte) : (eventWord fe d)[8] = fe := by
  rw [← BitVec.getLsbD_eq_getElem]
  show BitVec.getLsbD (w := 1 + 8) (BitVec.ofBool fe ++ d) 8 = fe
  rw [BitVec.getLsbD_append, if_neg (by omega)]
  simp

/-- Bits `[7:0]` of an event word are the byte (R83). -/
@[simp] theorem eventWord_data (fe : Bool) (d : Byte) : (eventWord fe d).extractLsb' 0 8 = d := by
  apply BitVec.eq_of_getLsbD_eq
  intro i hi
  show (BitVec.extractLsb' 0 8 (n := 1 + 8) (BitVec.ofBool fe ++ d)).getLsbD i = _
  simp only [BitVec.getLsbD_extractLsb', BitVec.getLsbD_append, hi, decide_true, Bool.true_and, Nat.zero_add,
    if_true]

/-- The packing of R89 loses nothing. -/
@[simp] theorem unpackChannels_packChannels (c : Channels) : unpackChannels (packChannels c) = c := by
  obtain ⟨r, g, b, d, f⟩ := c
  simp only [unpackChannels, packChannels, Channels.mk.injEq]
  refine ⟨?_, ?_, ?_, ?_, ?_⟩ <;> apply BitVec.eq_of_getLsbD_eq <;> intro i hi
  all_goals
    show (BitVec.extractLsb' _ _ (n := 8 + 8 + 8 + 8 + 8) (f ++ d ++ b ++ g ++ r)).getLsbD i = _
    simp only [BitVec.getLsbD_extractLsb', BitVec.getLsbD_append, hi, decide_true, Bool.true_and]
    repeat (first | rw [if_pos (by omega)] | rw [if_neg (by omega)])
    congr 1
    omega

end Sys2Proof
end

