-- ==== Sys2Proof/Laws/State.lean ====
section
/-! SUPPORT. One lemma per field per named update of the state, so that no proof unfolds an update. -/

namespace Sys2Proof.Machine

@[simp] theorem State.setBuf_buf (s : State) (m : Memory) : (s.setBuf m).buf = m := rfl
@[simp] theorem State.setBuf_cur (s : State) (m : Memory) : (s.setBuf m).cur = s.cur := rfl
@[simp] theorem State.setBuf_avail (s : State) (m : Memory) : (s.setBuf m).avail = s.avail := rfl
@[simp] theorem State.setBuf_addr (s : State) (m : Memory) : (s.setBuf m).addr = s.addr := rfl
@[simp] theorem State.setBuf_valid (s : State) (m : Memory) : (s.setBuf m).valid = s.valid := rfl
@[simp] theorem State.setBuf_invalid (s : State) (m : Memory) : (s.setBuf m).invalid = s.invalid := rfl
@[simp] theorem State.setBuf_progress (s : State) (m : Memory) : (s.setBuf m).progress = s.progress := rfl
@[simp] theorem State.setBuf_cfg (s : State) (m : Memory) : (s.setBuf m).cfg = s.cfg := rfl
@[simp] theorem State.setBuf_draw (s : State) (m : Memory) : (s.setBuf m).draw = s.draw := rfl
@[simp] theorem State.setBuf_events (s : State) (m : Memory) : (s.setBuf m).events = s.events := rfl
@[simp] theorem State.setBuf_commands (s : State) (m : Memory) : (s.setBuf m).commands = s.commands := rfl
@[simp] theorem State.setBuf_turns (s : State) (m : Memory) : (s.setBuf m).turns = s.turns := rfl
@[simp] theorem State.setBuf_trace (s : State) (m : Memory) : (s.setBuf m).trace = s.trace := rfl

@[simp] theorem State.setCur_buf (s : State) (c : Cursor) : (s.setCur c).buf = s.buf := rfl
@[simp] theorem State.setCur_cur (s : State) (c : Cursor) : (s.setCur c).cur = c := rfl
@[simp] theorem State.setCur_avail (s : State) (c : Cursor) : (s.setCur c).avail = s.avail := rfl
@[simp] theorem State.setCur_addr (s : State) (c : Cursor) : (s.setCur c).addr = s.addr := rfl
@[simp] theorem State.setCur_valid (s : State) (c : Cursor) : (s.setCur c).valid = s.valid := rfl
@[simp] theorem State.setCur_invalid (s : State) (c : Cursor) : (s.setCur c).invalid = s.invalid := rfl
@[simp] theorem State.setCur_progress (s : State) (c : Cursor) : (s.setCur c).progress = s.progress := rfl
@[simp] theorem State.setCur_cfg (s : State) (c : Cursor) : (s.setCur c).cfg = s.cfg := rfl
@[simp] theorem State.setCur_draw (s : State) (c : Cursor) : (s.setCur c).draw = s.draw := rfl
@[simp] theorem State.setCur_events (s : State) (c : Cursor) : (s.setCur c).events = s.events := rfl
@[simp] theorem State.setCur_commands (s : State) (c : Cursor) : (s.setCur c).commands = s.commands := rfl
@[simp] theorem State.setCur_turns (s : State) (c : Cursor) : (s.setCur c).turns = s.turns := rfl
@[simp] theorem State.setCur_trace (s : State) (c : Cursor) : (s.setCur c).trace = s.trace := rfl

@[simp] theorem State.setAvail_buf (s : State) (b : Bool) : (s.setAvail b).buf = s.buf := rfl
@[simp] theorem State.setAvail_cur (s : State) (b : Bool) : (s.setAvail b).cur = s.cur := rfl
@[simp] theorem State.setAvail_avail (s : State) (b : Bool) : (s.setAvail b).avail = b := rfl
@[simp] theorem State.setAvail_addr (s : State) (b : Bool) : (s.setAvail b).addr = s.addr := rfl
@[simp] theorem State.setAvail_valid (s : State) (b : Bool) : (s.setAvail b).valid = s.valid := rfl
@[simp] theorem State.setAvail_invalid (s : State) (b : Bool) : (s.setAvail b).invalid = s.invalid := rfl
@[simp] theorem State.setAvail_progress (s : State) (b : Bool) : (s.setAvail b).progress = s.progress := rfl
@[simp] theorem State.setAvail_cfg (s : State) (b : Bool) : (s.setAvail b).cfg = s.cfg := rfl
@[simp] theorem State.setAvail_draw (s : State) (b : Bool) : (s.setAvail b).draw = s.draw := rfl
@[simp] theorem State.setAvail_events (s : State) (b : Bool) : (s.setAvail b).events = s.events := rfl
@[simp] theorem State.setAvail_commands (s : State) (b : Bool) : (s.setAvail b).commands = s.commands := rfl
@[simp] theorem State.setAvail_turns (s : State) (b : Bool) : (s.setAvail b).turns = s.turns := rfl
@[simp] theorem State.setAvail_trace (s : State) (b : Bool) : (s.setAvail b).trace = s.trace := rfl

@[simp] theorem State.setAddr_buf (s : State) (a : BaseAddr) : (s.setAddr a).buf = s.buf := rfl
@[simp] theorem State.setAddr_cur (s : State) (a : BaseAddr) : (s.setAddr a).cur = s.cur := rfl
@[simp] theorem State.setAddr_avail (s : State) (a : BaseAddr) : (s.setAddr a).avail = s.avail := rfl
@[simp] theorem State.setAddr_addr (s : State) (a : BaseAddr) : (s.setAddr a).addr = a := rfl
@[simp] theorem State.setAddr_valid (s : State) (a : BaseAddr) : (s.setAddr a).valid = s.valid := rfl
@[simp] theorem State.setAddr_invalid (s : State) (a : BaseAddr) : (s.setAddr a).invalid = s.invalid := rfl
@[simp] theorem State.setAddr_progress (s : State) (a : BaseAddr) : (s.setAddr a).progress = s.progress := rfl
@[simp] theorem State.setAddr_cfg (s : State) (a : BaseAddr) : (s.setAddr a).cfg = s.cfg := rfl
@[simp] theorem State.setAddr_draw (s : State) (a : BaseAddr) : (s.setAddr a).draw = s.draw := rfl
@[simp] theorem State.setAddr_events (s : State) (a : BaseAddr) : (s.setAddr a).events = s.events := rfl
@[simp] theorem State.setAddr_commands (s : State) (a : BaseAddr) : (s.setAddr a).commands = s.commands := rfl
@[simp] theorem State.setAddr_turns (s : State) (a : BaseAddr) : (s.setAddr a).turns = s.turns := rfl
@[simp] theorem State.setAddr_trace (s : State) (a : BaseAddr) : (s.setAddr a).trace = s.trace := rfl

@[simp] theorem State.setValid_buf (s : State) (n : Nat) : (s.setValid n).buf = s.buf := rfl
@[simp] theorem State.setValid_cur (s : State) (n : Nat) : (s.setValid n).cur = s.cur := rfl
@[simp] theorem State.setValid_avail (s : State) (n : Nat) : (s.setValid n).avail = s.avail := rfl
@[simp] theorem State.setValid_addr (s : State) (n : Nat) : (s.setValid n).addr = s.addr := rfl
@[simp] theorem State.setValid_valid (s : State) (n : Nat) : (s.setValid n).valid = n := rfl
@[simp] theorem State.setValid_invalid (s : State) (n : Nat) : (s.setValid n).invalid = s.invalid := rfl
@[simp] theorem State.setValid_progress (s : State) (n : Nat) : (s.setValid n).progress = s.progress := rfl
@[simp] theorem State.setValid_cfg (s : State) (n : Nat) : (s.setValid n).cfg = s.cfg := rfl
@[simp] theorem State.setValid_draw (s : State) (n : Nat) : (s.setValid n).draw = s.draw := rfl
@[simp] theorem State.setValid_events (s : State) (n : Nat) : (s.setValid n).events = s.events := rfl
@[simp] theorem State.setValid_commands (s : State) (n : Nat) : (s.setValid n).commands = s.commands := rfl
@[simp] theorem State.setValid_turns (s : State) (n : Nat) : (s.setValid n).turns = s.turns := rfl
@[simp] theorem State.setValid_trace (s : State) (n : Nat) : (s.setValid n).trace = s.trace := rfl

@[simp] theorem State.setInvalid_buf (s : State) (n : Nat) : (s.setInvalid n).buf = s.buf := rfl
@[simp] theorem State.setInvalid_cur (s : State) (n : Nat) : (s.setInvalid n).cur = s.cur := rfl
@[simp] theorem State.setInvalid_avail (s : State) (n : Nat) : (s.setInvalid n).avail = s.avail := rfl
@[simp] theorem State.setInvalid_addr (s : State) (n : Nat) : (s.setInvalid n).addr = s.addr := rfl
@[simp] theorem State.setInvalid_valid (s : State) (n : Nat) : (s.setInvalid n).valid = s.valid := rfl
@[simp] theorem State.setInvalid_invalid (s : State) (n : Nat) : (s.setInvalid n).invalid = n := rfl
@[simp] theorem State.setInvalid_progress (s : State) (n : Nat) : (s.setInvalid n).progress = s.progress := rfl
@[simp] theorem State.setInvalid_cfg (s : State) (n : Nat) : (s.setInvalid n).cfg = s.cfg := rfl
@[simp] theorem State.setInvalid_draw (s : State) (n : Nat) : (s.setInvalid n).draw = s.draw := rfl
@[simp] theorem State.setInvalid_events (s : State) (n : Nat) : (s.setInvalid n).events = s.events := rfl
@[simp] theorem State.setInvalid_commands (s : State) (n : Nat) : (s.setInvalid n).commands = s.commands := rfl
@[simp] theorem State.setInvalid_turns (s : State) (n : Nat) : (s.setInvalid n).turns = s.turns := rfl
@[simp] theorem State.setInvalid_trace (s : State) (n : Nat) : (s.setInvalid n).trace = s.trace := rfl

@[simp] theorem State.setProgress_buf (s : State) (d : Option DecodeProgress) : (s.setProgress d).buf = s.buf := rfl
@[simp] theorem State.setProgress_cur (s : State) (d : Option DecodeProgress) : (s.setProgress d).cur = s.cur := rfl
@[simp] theorem State.setProgress_avail (s : State) (d : Option DecodeProgress) : (s.setProgress d).avail = s.avail := rfl
@[simp] theorem State.setProgress_addr (s : State) (d : Option DecodeProgress) : (s.setProgress d).addr = s.addr := rfl
@[simp] theorem State.setProgress_valid (s : State) (d : Option DecodeProgress) : (s.setProgress d).valid = s.valid := rfl
@[simp] theorem State.setProgress_invalid (s : State) (d : Option DecodeProgress) : (s.setProgress d).invalid = s.invalid := rfl
@[simp] theorem State.setProgress_progress (s : State) (d : Option DecodeProgress) : (s.setProgress d).progress = d := rfl
@[simp] theorem State.setProgress_cfg (s : State) (d : Option DecodeProgress) : (s.setProgress d).cfg = s.cfg := rfl
@[simp] theorem State.setProgress_draw (s : State) (d : Option DecodeProgress) : (s.setProgress d).draw = s.draw := rfl
@[simp] theorem State.setProgress_events (s : State) (d : Option DecodeProgress) : (s.setProgress d).events = s.events := rfl
@[simp] theorem State.setProgress_commands (s : State) (d : Option DecodeProgress) : (s.setProgress d).commands = s.commands := rfl
@[simp] theorem State.setProgress_turns (s : State) (d : Option DecodeProgress) : (s.setProgress d).turns = s.turns := rfl
@[simp] theorem State.setProgress_trace (s : State) (d : Option DecodeProgress) : (s.setProgress d).trace = s.trace := rfl

@[simp] theorem State.record_buf (s : State) (e : Entry) : (s.record e).buf = s.buf := rfl
@[simp] theorem State.record_cur (s : State) (e : Entry) : (s.record e).cur = s.cur := rfl
@[simp] theorem State.record_avail (s : State) (e : Entry) : (s.record e).avail = s.avail := rfl
@[simp] theorem State.record_addr (s : State) (e : Entry) : (s.record e).addr = s.addr := rfl
@[simp] theorem State.record_valid (s : State) (e : Entry) : (s.record e).valid = s.valid := rfl
@[simp] theorem State.record_invalid (s : State) (e : Entry) : (s.record e).invalid = s.invalid := rfl
@[simp] theorem State.record_progress (s : State) (e : Entry) : (s.record e).progress = s.progress := rfl
@[simp] theorem State.record_cfg (s : State) (e : Entry) : (s.record e).cfg = s.cfg := rfl
@[simp] theorem State.record_draw (s : State) (e : Entry) : (s.record e).draw = s.draw := rfl
@[simp] theorem State.record_events (s : State) (e : Entry) : (s.record e).events = s.events := rfl
@[simp] theorem State.record_commands (s : State) (e : Entry) : (s.record e).commands = s.commands := rfl
@[simp] theorem State.record_turns (s : State) (e : Entry) : (s.record e).turns = s.turns := rfl
@[simp] theorem State.record_trace (s : State) (e : Entry) : (s.record e).trace = e :: s.trace := rfl

@[simp] theorem State.emitArm_buf (s : State) : s.emitArm.buf = s.buf := rfl
@[simp] theorem State.emitArm_cur (s : State) : s.emitArm.cur = s.cur := rfl
@[simp] theorem State.emitArm_avail (s : State) : s.emitArm.avail = s.avail := rfl
@[simp] theorem State.emitArm_addr (s : State) : s.emitArm.addr = s.addr := rfl
@[simp] theorem State.emitArm_valid (s : State) : s.emitArm.valid = s.valid := rfl
@[simp] theorem State.emitArm_invalid (s : State) : s.emitArm.invalid = s.invalid := rfl
@[simp] theorem State.emitArm_progress (s : State) : s.emitArm.progress = s.progress := rfl
@[simp] theorem State.emitArm_cfg (s : State) : s.emitArm.cfg = s.cfg := rfl
@[simp] theorem State.emitArm_draw (s : State) : s.emitArm.draw = s.draw := rfl
@[simp] theorem State.emitArm_events (s : State) : s.emitArm.events = s.events := rfl
@[simp] theorem State.emitArm_commands (s : State) : s.emitArm.commands = s.commands := rfl
@[simp] theorem State.emitArm_turns (s : State) : s.emitArm.turns = s.turns := rfl
@[simp] theorem State.emitArm_trace (s : State) : s.emitArm.trace = .armNext :: s.trace := rfl

@[simp] theorem State.respond_buf (s : State) (r : Response) : (s.respond r).buf = s.buf := rfl
@[simp] theorem State.respond_cur (s : State) (r : Response) : (s.respond r).cur = s.cur := rfl
@[simp] theorem State.respond_avail (s : State) (r : Response) : (s.respond r).avail = s.avail := rfl
@[simp] theorem State.respond_addr (s : State) (r : Response) : (s.respond r).addr = s.addr := rfl
@[simp] theorem State.respond_valid (s : State) (r : Response) : (s.respond r).valid = s.valid := rfl
@[simp] theorem State.respond_invalid (s : State) (r : Response) : (s.respond r).invalid = s.invalid := rfl
@[simp] theorem State.respond_progress (s : State) (r : Response) : (s.respond r).progress = s.progress := rfl
@[simp] theorem State.respond_cfg (s : State) (r : Response) : (s.respond r).cfg = s.cfg := rfl
@[simp] theorem State.respond_draw (s : State) (r : Response) : (s.respond r).draw = s.draw := rfl
@[simp] theorem State.respond_events (s : State) (r : Response) : (s.respond r).events = s.events := rfl
@[simp] theorem State.respond_commands (s : State) (r : Response) : (s.respond r).commands = s.commands := rfl
@[simp] theorem State.respond_turns (s : State) (r : Response) : (s.respond r).turns = s.turns := rfl
@[simp] theorem State.respond_trace (s : State) (r : Response) : (s.respond r).trace = .response r :: s.trace := rfl

@[simp] theorem returnOk_buf (s : State) (d : RspData) : (returnOk d s).buf = s.buf := rfl
@[simp] theorem returnOk_cur (s : State) (d : RspData) : (returnOk d s).cur = s.cur := rfl
@[simp] theorem returnOk_avail (s : State) (d : RspData) : (returnOk d s).avail = s.avail := rfl
@[simp] theorem returnOk_addr (s : State) (d : RspData) : (returnOk d s).addr = s.addr := rfl
@[simp] theorem returnOk_valid (s : State) (d : RspData) : (returnOk d s).valid = s.valid := rfl
@[simp] theorem returnOk_invalid (s : State) (d : RspData) : (returnOk d s).invalid = s.invalid := rfl
@[simp] theorem returnOk_progress (s : State) (d : RspData) : (returnOk d s).progress = s.progress := rfl
@[simp] theorem returnOk_cfg (s : State) (d : RspData) : (returnOk d s).cfg = s.cfg := rfl
@[simp] theorem returnOk_draw (s : State) (d : RspData) : (returnOk d s).draw = s.draw := rfl
@[simp] theorem returnOk_events (s : State) (d : RspData) : (returnOk d s).events = s.events := rfl
@[simp] theorem returnOk_commands (s : State) (d : RspData) : (returnOk d s).commands = s.commands := rfl
@[simp] theorem returnOk_turns (s : State) (d : RspData) : (returnOk d s).turns = s.turns := rfl
@[simp] theorem returnOk_trace (s : State) (d : RspData) : (returnOk d s).trace = .response (.ok d) :: s.trace := rfl

@[simp] theorem returnFail_buf (s : State) (k : FailKind) : (returnFail k s).buf = s.buf := rfl
@[simp] theorem returnFail_cur (s : State) (k : FailKind) : (returnFail k s).cur = s.cur := rfl
@[simp] theorem returnFail_avail (s : State) (k : FailKind) : (returnFail k s).avail = s.avail := rfl
@[simp] theorem returnFail_addr (s : State) (k : FailKind) : (returnFail k s).addr = s.addr := rfl
@[simp] theorem returnFail_valid (s : State) (k : FailKind) : (returnFail k s).valid = s.valid := rfl
@[simp] theorem returnFail_invalid (s : State) (k : FailKind) : (returnFail k s).invalid = s.invalid := rfl
@[simp] theorem returnFail_progress (s : State) (k : FailKind) : (returnFail k s).progress = s.progress := rfl
@[simp] theorem returnFail_cfg (s : State) (k : FailKind) : (returnFail k s).cfg = s.cfg := rfl
@[simp] theorem returnFail_draw (s : State) (k : FailKind) : (returnFail k s).draw = s.draw := rfl
@[simp] theorem returnFail_events (s : State) (k : FailKind) : (returnFail k s).events = s.events := rfl
@[simp] theorem returnFail_commands (s : State) (k : FailKind) : (returnFail k s).commands = s.commands := rfl
@[simp] theorem returnFail_turns (s : State) (k : FailKind) : (returnFail k s).turns = s.turns := rfl
@[simp] theorem returnFail_trace (s : State) (k : FailKind) : (returnFail k s).trace = .response (.fail k) :: s.trace := rfl

@[simp] theorem State.clearCounters_buf (s : State) : s.clearCounters.buf = s.buf := rfl
@[simp] theorem State.clearCounters_cur (s : State) : s.clearCounters.cur = s.cur := rfl
@[simp] theorem State.clearCounters_avail (s : State) : s.clearCounters.avail = s.avail := rfl
@[simp] theorem State.clearCounters_addr (s : State) : s.clearCounters.addr = s.addr := rfl
@[simp] theorem State.clearCounters_valid (s : State) : s.clearCounters.valid = 0 := rfl
@[simp] theorem State.clearCounters_invalid (s : State) : s.clearCounters.invalid = 0 := rfl
@[simp] theorem State.clearCounters_progress (s : State) : s.clearCounters.progress = s.progress := rfl
@[simp] theorem State.clearCounters_cfg (s : State) : s.clearCounters.cfg = s.cfg := rfl
@[simp] theorem State.clearCounters_draw (s : State) : s.clearCounters.draw = s.draw := rfl
@[simp] theorem State.clearCounters_events (s : State) : s.clearCounters.events = s.events := rfl
@[simp] theorem State.clearCounters_commands (s : State) : s.clearCounters.commands = s.commands := rfl
@[simp] theorem State.clearCounters_turns (s : State) : s.clearCounters.turns = s.turns := rfl
@[simp] theorem State.clearCounters_trace (s : State) : s.clearCounters.trace = s.trace := rfl

@[simp] theorem State.registersAtReset_buf (s : State) : s.registersAtReset.buf = s.buf := rfl
@[simp] theorem State.registersAtReset_cur (s : State) : s.registersAtReset.cur = ⟨0, by decide⟩ := rfl
@[simp] theorem State.registersAtReset_avail (s : State) : s.registersAtReset.avail = false := rfl
@[simp] theorem State.registersAtReset_addr (s : State) : s.registersAtReset.addr = BaseAddr.default := rfl
@[simp] theorem State.registersAtReset_valid (s : State) : s.registersAtReset.valid = 0 := rfl
@[simp] theorem State.registersAtReset_invalid (s : State) : s.registersAtReset.invalid = 0 := rfl
@[simp] theorem State.registersAtReset_progress (s : State) : s.registersAtReset.progress = s.progress := rfl
@[simp] theorem State.registersAtReset_cfg (s : State) : s.registersAtReset.cfg = s.cfg := rfl
@[simp] theorem State.registersAtReset_draw (s : State) : s.registersAtReset.draw = s.draw := rfl
@[simp] theorem State.registersAtReset_events (s : State) : s.registersAtReset.events = s.events := rfl
@[simp] theorem State.registersAtReset_commands (s : State) : s.registersAtReset.commands = s.commands := rfl
@[simp] theorem State.registersAtReset_turns (s : State) : s.registersAtReset.turns = s.turns := rfl
@[simp] theorem State.registersAtReset_trace (s : State) : s.registersAtReset.trace = s.trace := rfl

@[simp] theorem takeReset_buf (s : State) : (takeReset s).buf = [] := rfl
@[simp] theorem takeReset_cur (s : State) : (takeReset s).cur = ⟨0, by decide⟩ := rfl
@[simp] theorem takeReset_avail (s : State) : (takeReset s).avail = false := rfl
@[simp] theorem takeReset_addr (s : State) : (takeReset s).addr = BaseAddr.default := rfl
@[simp] theorem takeReset_valid (s : State) : (takeReset s).valid = 0 := rfl
@[simp] theorem takeReset_invalid (s : State) : (takeReset s).invalid = 0 := rfl
@[simp] theorem takeReset_progress (s : State) : (takeReset s).progress = none := rfl
@[simp] theorem takeReset_cfg (s : State) : (takeReset s).cfg = s.cfg := rfl
@[simp] theorem takeReset_draw (s : State) : (takeReset s).draw = s.draw + 1 := rfl
@[simp] theorem takeReset_events (s : State) : (takeReset s).events = s.events := rfl
@[simp] theorem takeReset_commands (s : State) : (takeReset s).commands = s.commands := rfl
@[simp] theorem takeReset_turns (s : State) : (takeReset s).turns = s.turns := rfl
@[simp] theorem takeReset_trace (s : State) : (takeReset s).trace = s.trace := rfl

@[simp] theorem State.countValid_buf (s : State) : s.countValid.buf = s.buf := rfl
@[simp] theorem State.countValid_cur (s : State) : s.countValid.cur = s.cur := rfl
@[simp] theorem State.countValid_avail (s : State) : s.countValid.avail = s.avail := rfl
@[simp] theorem State.countValid_addr (s : State) : s.countValid.addr = s.addr := rfl
@[simp] theorem State.countValid_valid (s : State) : s.countValid.valid = incCounter s.cfg.cntW s.cfg.cntOvf s.valid := rfl
@[simp] theorem State.countValid_invalid (s : State) : s.countValid.invalid = s.invalid := rfl
@[simp] theorem State.countValid_progress (s : State) : s.countValid.progress = s.progress := rfl
@[simp] theorem State.countValid_cfg (s : State) : s.countValid.cfg = s.cfg := rfl
@[simp] theorem State.countValid_draw (s : State) : s.countValid.draw = s.draw := rfl
@[simp] theorem State.countValid_events (s : State) : s.countValid.events = s.events := rfl
@[simp] theorem State.countValid_commands (s : State) : s.countValid.commands = s.commands := rfl
@[simp] theorem State.countValid_turns (s : State) : s.countValid.turns = s.turns := rfl
@[simp] theorem State.countValid_trace (s : State) : s.countValid.trace = s.trace := rfl

@[simp] theorem State.countInvalid_buf (s : State) : s.countInvalid.buf = s.buf := rfl
@[simp] theorem State.countInvalid_cur (s : State) : s.countInvalid.cur = s.cur := rfl
@[simp] theorem State.countInvalid_avail (s : State) : s.countInvalid.avail = s.avail := rfl
@[simp] theorem State.countInvalid_addr (s : State) : s.countInvalid.addr = s.addr := rfl
@[simp] theorem State.countInvalid_valid (s : State) : s.countInvalid.valid = s.valid := rfl
@[simp] theorem State.countInvalid_invalid (s : State) : s.countInvalid.invalid = incCounter s.cfg.cntW s.cfg.cntOvf s.invalid := rfl
@[simp] theorem State.countInvalid_progress (s : State) : s.countInvalid.progress = s.progress := rfl
@[simp] theorem State.countInvalid_cfg (s : State) : s.countInvalid.cfg = s.cfg := rfl
@[simp] theorem State.countInvalid_draw (s : State) : s.countInvalid.draw = s.draw := rfl
@[simp] theorem State.countInvalid_events (s : State) : s.countInvalid.events = s.events := rfl
@[simp] theorem State.countInvalid_commands (s : State) : s.countInvalid.commands = s.commands := rfl
@[simp] theorem State.countInvalid_turns (s : State) : s.countInvalid.turns = s.turns := rfl
@[simp] theorem State.countInvalid_trace (s : State) : s.countInvalid.trace = s.trace := rfl

@[simp] theorem State.writeByte_buf (s : State) (i : Index) (v : Byte) : (s.writeByte i v).buf = Memory.poke s.buf i.val v := rfl
@[simp] theorem State.writeByte_cur (s : State) (i : Index) (v : Byte) : (s.writeByte i v).cur = s.cur := rfl
@[simp] theorem State.writeByte_avail (s : State) (i : Index) (v : Byte) : (s.writeByte i v).avail = s.avail := rfl
@[simp] theorem State.writeByte_addr (s : State) (i : Index) (v : Byte) : (s.writeByte i v).addr = s.addr := rfl
@[simp] theorem State.writeByte_valid (s : State) (i : Index) (v : Byte) : (s.writeByte i v).valid = s.valid := rfl
@[simp] theorem State.writeByte_invalid (s : State) (i : Index) (v : Byte) : (s.writeByte i v).invalid = s.invalid := rfl
@[simp] theorem State.writeByte_progress (s : State) (i : Index) (v : Byte) : (s.writeByte i v).progress = s.progress := rfl
@[simp] theorem State.writeByte_cfg (s : State) (i : Index) (v : Byte) : (s.writeByte i v).cfg = s.cfg := rfl
@[simp] theorem State.writeByte_draw (s : State) (i : Index) (v : Byte) : (s.writeByte i v).draw = s.draw := rfl
@[simp] theorem State.writeByte_events (s : State) (i : Index) (v : Byte) : (s.writeByte i v).events = s.events := rfl
@[simp] theorem State.writeByte_commands (s : State) (i : Index) (v : Byte) : (s.writeByte i v).commands = s.commands := rfl
@[simp] theorem State.writeByte_turns (s : State) (i : Index) (v : Byte) : (s.writeByte i v).turns = s.turns := rfl
@[simp] theorem State.writeByte_trace (s : State) (i : Index) (v : Byte) : (s.writeByte i v).trace = s.trace := rfl

@[simp] theorem State.raiseAvail_buf (s : State) : s.raiseAvail.buf = s.buf := rfl
@[simp] theorem State.raiseAvail_cur (s : State) : s.raiseAvail.cur = s.cur := rfl
@[simp] theorem State.raiseAvail_avail (s : State) : s.raiseAvail.avail = true := rfl
@[simp] theorem State.raiseAvail_addr (s : State) : s.raiseAvail.addr = s.addr := rfl
@[simp] theorem State.raiseAvail_valid (s : State) : s.raiseAvail.valid = s.valid := rfl
@[simp] theorem State.raiseAvail_invalid (s : State) : s.raiseAvail.invalid = s.invalid := rfl
@[simp] theorem State.raiseAvail_progress (s : State) : s.raiseAvail.progress = s.progress := rfl
@[simp] theorem State.raiseAvail_cfg (s : State) : s.raiseAvail.cfg = s.cfg := rfl
@[simp] theorem State.raiseAvail_draw (s : State) : s.raiseAvail.draw = s.draw := rfl
@[simp] theorem State.raiseAvail_events (s : State) : s.raiseAvail.events = s.events := rfl
@[simp] theorem State.raiseAvail_commands (s : State) : s.raiseAvail.commands = s.commands := rfl
@[simp] theorem State.raiseAvail_turns (s : State) : s.raiseAvail.turns = s.turns := rfl
@[simp] theorem State.raiseAvail_trace (s : State) : s.raiseAvail.trace = s.trace := rfl

@[simp] theorem State.clearAvail_buf (s : State) : s.clearAvail.buf = s.buf := rfl
@[simp] theorem State.clearAvail_cur (s : State) : s.clearAvail.cur = s.cur := rfl
@[simp] theorem State.clearAvail_avail (s : State) : s.clearAvail.avail = false := rfl
@[simp] theorem State.clearAvail_addr (s : State) : s.clearAvail.addr = s.addr := rfl
@[simp] theorem State.clearAvail_valid (s : State) : s.clearAvail.valid = s.valid := rfl
@[simp] theorem State.clearAvail_invalid (s : State) : s.clearAvail.invalid = s.invalid := rfl
@[simp] theorem State.clearAvail_progress (s : State) : s.clearAvail.progress = s.progress := rfl
@[simp] theorem State.clearAvail_cfg (s : State) : s.clearAvail.cfg = s.cfg := rfl
@[simp] theorem State.clearAvail_draw (s : State) : s.clearAvail.draw = s.draw := rfl
@[simp] theorem State.clearAvail_events (s : State) : s.clearAvail.events = s.events := rfl
@[simp] theorem State.clearAvail_commands (s : State) : s.clearAvail.commands = s.commands := rfl
@[simp] theorem State.clearAvail_turns (s : State) : s.clearAvail.turns = s.turns := rfl
@[simp] theorem State.clearAvail_trace (s : State) : s.clearAvail.trace = s.trace := rfl

@[simp] theorem takeReserved_buf (s : State) : (takeReserved s).buf = s.buf := rfl
@[simp] theorem takeReserved_cur (s : State) : (takeReserved s).cur = s.cur := rfl
@[simp] theorem takeReserved_avail (s : State) : (takeReserved s).avail = s.avail := rfl
@[simp] theorem takeReserved_addr (s : State) : (takeReserved s).addr = s.addr := rfl
@[simp] theorem takeReserved_valid (s : State) : (takeReserved s).valid = s.valid := rfl
@[simp] theorem takeReserved_invalid (s : State) : (takeReserved s).invalid = s.invalid := rfl
@[simp] theorem takeReserved_progress (s : State) : (takeReserved s).progress = s.progress := rfl
@[simp] theorem takeReserved_cfg (s : State) : (takeReserved s).cfg = s.cfg := rfl
@[simp] theorem takeReserved_draw (s : State) : (takeReserved s).draw = s.draw := rfl
@[simp] theorem takeReserved_events (s : State) : (takeReserved s).events = s.events := rfl
@[simp] theorem takeReserved_commands (s : State) : (takeReserved s).commands = s.commands := rfl
@[simp] theorem takeReserved_turns (s : State) : (takeReserved s).turns = s.turns := rfl
@[simp] theorem takeReserved_trace (s : State) : (takeReserved s).trace = .response (.fail .reservedOperation) :: s.trace := rfl

end Sys2Proof.Machine
end

