-- ==== Sys2Proof/Laws/Memory.lean ====
section
/-! SUPPORT. The laws of the buffer: read after write, and the canonical form is kept. -/

namespace Sys2Proof.Machine

@[simp] theorem Memory.peek_nil (a : Nat) : Memory.peek [] a = none := rfl

theorem Memory.peek_cons (c : Host.Cell) (m : Memory) (b : Nat) :
    Memory.peek (c :: m) b = if c.1 = b then some c.2 else Memory.peek m b := rfl

theorem Memory.poke_of_lt {c : Host.Cell} {a : Nat} (h : a < c.1) (m : Memory) (v : Byte) :
    Memory.poke (c :: m) a v = (a, v) :: c :: m := if_pos h

theorem Memory.poke_of_eq {c : Host.Cell} {a : Nat} (h : c.1 = a) (m : Memory) (v : Byte) :
    Memory.poke (c :: m) a v = (a, v) :: m :=
  (if_neg (show ¬ a < c.1 by omega)).trans (if_pos h)

theorem Memory.poke_of_gt {c : Host.Cell} {a : Nat} (h : c.1 < a) (m : Memory) (v : Byte) :
    Memory.poke (c :: m) a v = c :: Memory.poke m a v :=
  (if_neg (show ¬ a < c.1 by omega)).trans (if_neg (show ¬ c.1 = a by omega))

theorem Memory.peek_poke (m : Memory) (a b : Nat) (v : Byte) :
    Memory.peek (Memory.poke m a v) b = if a = b then some v else Memory.peek m b := by
  induction m with
  | nil => rfl
  | cons c m ih =>
    rcases Nat.lt_trichotomy a c.1 with h | h | h
    · rw [Memory.poke_of_lt h, Memory.peek_cons]
    · rw [Memory.poke_of_eq h.symm, Memory.peek_cons, Memory.peek_cons]
      by_cases hb : a = b
      · simp [hb]
      · simp [hb, show ¬ c.1 = b by omega]
    · rw [Memory.poke_of_gt h, Memory.peek_cons, Memory.peek_cons, ih]
      by_cases hc : c.1 = b
      · simp [hc, show ¬ a = b by omega]
      · simp [hc]

theorem Memory.mem_poke {m : Memory} {a : Nat} {v : Byte} {c : Host.Cell} (h : c ∈ Memory.poke m a v) :
    c = (a, v) ∨ c ∈ m := by
  induction m with
  | nil => simpa [Memory.poke] using h
  | cons d m ih =>
    rcases Nat.lt_trichotomy a d.1 with h1 | h1 | h1
    · simpa [Memory.poke_of_lt h1] using h
    · rw [Memory.poke_of_eq h1.symm] at h
      exact (List.mem_cons.1 h).imp id (List.mem_cons_of_mem _)
    · rw [Memory.poke_of_gt h1] at h
      rcases List.mem_cons.1 h with h | h
      · exact .inr (h ▸ List.mem_cons_self)
      · exact (ih h).imp id (List.mem_cons_of_mem _)

/-- The empty buffer, as reset leaves it, is canonical. -/
theorem Memory.wf_nil : Memory.wf [] := by simp [Memory.wf]

/-- A store inside the buffer keeps the canonical form. -/
theorem Memory.wf_poke {m : Memory} (h : Memory.wf m) {a : Nat} (ha : a < Config.frameLen) (v : Byte) :
    Memory.wf (Memory.poke m a v) := by
  refine ⟨?_, fun c hc => ?_⟩
  · have hs := h.1
    clear h
    induction m with
    | nil => simp [Memory.poke]
    | cons d m ih =>
      have hs' := List.pairwise_cons.1 hs
      rcases Nat.lt_trichotomy a d.1 with h1 | h1 | h1
      · rw [Memory.poke_of_lt h1]
        refine List.pairwise_cons.2 ⟨fun x hx => ?_, hs⟩
        rcases List.mem_cons.1 hx with h | h
        · exact h ▸ h1
        · exact lt_trans h1 (hs'.1 x h)
      · rw [Memory.poke_of_eq h1.symm]
        exact List.pairwise_cons.2 ⟨fun x hx => h1 ▸ hs'.1 x hx, hs'.2⟩
      · rw [Memory.poke_of_gt h1]
        refine List.pairwise_cons.2 ⟨fun x hx => ?_, ih hs'.2⟩
        obtain ⟨c, hc, rfl⟩ := List.mem_map.1 hx
        rcases Memory.mem_poke hc with rfl | hc
        · exact h1
        · exact hs'.1 _ (List.mem_map_of_mem hc)
  · rcases Memory.mem_poke hc with rfl | hc
    · exact ha
    · exact h.2 c hc

/-- Read after write (R58): the written index reads as the byte written, every other index as before. -/
theorem State.readByte_writeByte (s : State) (i j : Index) (v : Byte) :
    (s.writeByte i v).readByte j = if i = j then v else s.readByte j := by
  by_cases h : i = j
  · simp [State.readByte, Memory.peek_poke, h]
  · have h' : i.val ≠ j.val := fun e => h (Fin.ext e)
    simp [State.readByte, Memory.peek_poke, h, h']

/-- A read depends on the buffer and the draw only. -/
theorem State.readByte_congr {s t : State} (hb : t.buf = s.buf) (hd : t.draw = s.draw) (i : Index) :
    t.readByte i = s.readByte i := by
  simp [State.readByte, hb, hd]

@[simp] theorem State.readByte_setCur (s : State) (c : Cursor) (i : Index) :
    (s.setCur c).readByte i = s.readByte i := rfl
@[simp] theorem State.readByte_setAvail (s : State) (b : Bool) (i : Index) :
    (s.setAvail b).readByte i = s.readByte i := rfl
@[simp] theorem State.readByte_setAddr (s : State) (a : BaseAddr) (i : Index) :
    (s.setAddr a).readByte i = s.readByte i := rfl
@[simp] theorem State.readByte_setProgress (s : State) (d : Option DecodeProgress) (i : Index) :
    (s.setProgress d).readByte i = s.readByte i := rfl
@[simp] theorem State.readByte_record (s : State) (e : Entry) (i : Index) :
    (s.record e).readByte i = s.readByte i := rfl
@[simp] theorem State.readByte_emitArm (s : State) (i : Index) : s.emitArm.readByte i = s.readByte i := rfl
@[simp] theorem State.readByte_raiseAvail (s : State) (i : Index) : s.raiseAvail.readByte i = s.readByte i := rfl
@[simp] theorem State.readByte_clearAvail (s : State) (i : Index) : s.clearAvail.readByte i = s.readByte i := rfl
@[simp] theorem State.readByte_clearCounters (s : State) (i : Index) :
    s.clearCounters.readByte i = s.readByte i := rfl
@[simp] theorem State.readByte_countValid (s : State) (i : Index) : s.countValid.readByte i = s.readByte i := rfl
@[simp] theorem State.readByte_countInvalid (s : State) (i : Index) : s.countInvalid.readByte i = s.readByte i := rfl
@[simp] theorem State.readByte_registersAtReset (s : State) (i : Index) :
    s.registersAtReset.readByte i = s.readByte i := rfl
@[simp] theorem returnOk_readByte (s : State) (d : RspData) (i : Index) :
    (returnOk d s).readByte i = s.readByte i := rfl
@[simp] theorem returnFail_readByte (s : State) (k : FailKind) (i : Index) :
    (returnFail k s).readByte i = s.readByte i := rfl
@[simp] theorem takeReserved_readByte (s : State) (i : Index) : (takeReserved s).readByte i = s.readByte i := rfl

end Sys2Proof.Machine
end

