-- ==== Sys2Proof/Laws/Operands.lean ====
section
/-! SUPPORT. The operand forms: what the checked address, the window index and the cursor can be. -/

namespace Sys2Proof.Machine

/-- (I3): a base address is at least 1 and at most 506. -/
theorem BaseAddr.range (a : BaseAddr) : 1 ≤ a.val ∧ a.val ≤ 506 := a.legal

theorem BaseAddr.ext_val {a b : BaseAddr} (h : a.val = b.val) : a = b := by
  cases a
  cases b
  simpa using h

/-- (I1): the cursor is at most 513. -/
theorem Cursor.le_frameLen (c : Cursor) : c.val ≤ 513 := Nat.le_of_lt_succ c.isLt

/-- What a checked address operand is: the operand itself, when it is in 1 to 506 (R110). -/
theorem addressOperand_eq_some {v : AddrOperand} {a : BaseAddr} :
    addressOperand v = some a ↔ a.val = v.toNat := by
  unfold addressOperand
  split
  · constructor
    · intro h
      cases h
      rfl
    · exact fun h => congrArg some (BaseAddr.ext_val h.symm)
  · rename_i hv
    constructor
    · intro h
      cases h
    · exact fun h => absurd (h ▸ a.legal) hv

/-- When an address operand is refused (R110). -/
theorem addressOperand_eq_none {v : AddrOperand} :
    addressOperand v = none ↔ ¬ (1 ≤ v.toNat ∧ v.toNat ≤ 506) := by
  unfold addressOperand
  split
  · rename_i hv
    exact ⟨fun h => (nomatch h), fun h => absurd hv h⟩
  · rename_i hv
    exact ⟨fun _ => hv, fun _ => rfl⟩

@[simp] theorem windowIndex_val (a : BaseAddr) (k : Fin Config.footprint) :
    (windowIndex a k).val = a.val + k.val := rfl

@[simp] theorem startIndex_val : startIndex.val = 0 := rfl

@[simp] theorem nextCursor_val (i : Index) : (nextCursor i).val = i.val + 1 := rfl

/-- The Filling state (R120): the cursor is the index to fill. -/
theorem fillIndex_eq_some {c : Cursor} {i : Index} : fillIndex c = some i ↔ i.val = c.val := by
  unfold fillIndex
  split
  · constructor
    · intro h
      cases h
      rfl
    · exact fun h => congrArg some (Fin.ext h.symm)
  · rename_i hc
    constructor
    · intro h
      cases h
    · exact fun h => absurd (h ▸ i.isLt) hc

/-- The Full state (R120). -/
theorem fillIndex_eq_none {c : Cursor} : fillIndex c = none ↔ c.val = 513 := by
  have hc := Cursor.le_frameLen c
  unfold fillIndex
  split
  · rename_i h
    exact ⟨fun h' => (nomatch h'), fun h' => absurd h' (Nat.ne_of_lt h)⟩
  · rename_i h
    exact ⟨fun _ => Nat.le_antisymm hc (Nat.le_of_not_lt h), fun _ => rfl⟩

@[simp] theorem isFull_iff (c : Cursor) : isFull c = true ↔ c.val = 513 := by
  simp [isFull]

end Sys2Proof.Machine
end

