-- ==== Sys2Proof/Laws/Machine.lean ====
section
/-! SUPPORT. For each shared operation one lemma that says once what it can do, to be cited instead of unfolding it. -/

namespace Sys2Proof.Machine

/-! ## The counters -/

/-- R163, the first case. -/
theorem incCounter_lt {w : Nat} {ovf : Config.CntOvf} {x : Nat} (h : x < 2 ^ w - 1) :
    incCounter w ovf x = x + 1 := by
  simp [incCounter, h]

/-- An increment gives a legal counter value. -/
theorem incCounter_legal (w : Nat) (ovf : Config.CntOvf) (x : Nat) : incCounter w ovf x < 2 ^ w := by
  have h := Nat.two_pow_pos w
  unfold incCounter
  split
  · omega
  · cases ovf
    · exact h
    · exact Nat.sub_lt h Nat.one_pos

/-! ## The receiver -/

/-- What the byte accumulator does (R123): the byte at the index, the cursor past it, the flag raised when the index
is 512, nothing else. -/
theorem storeAtCursor_spec (d : Byte) (i : Index) (s : State) :
    storeAtCursor d i s =
      { s with buf := Memory.poke s.buf i.val d, cur := nextCursor i, avail := s.avail || decide (i.val = 512) } := by
  unfold storeAtCursor
  have hf : isFull (nextCursor i) = decide (i.val = 512) := decide_eq_decide.2 Nat.succ_inj
  by_cases h : i.val = 512
  · simp [hf, h, State.writeByte, State.raiseAvail, State.setAvail, State.setBuf, State.setCur]
  · simp [hf, h, State.writeByte, State.setBuf, State.setCur]

/-- What a read gives after the byte accumulator. -/
theorem storeAtCursor_readByte (d : Byte) (i j : Index) (s : State) :
    (storeAtCursor d i s).readByte j = if i = j then d else s.readByte j := by
  rw [← State.readByte_writeByte, storeAtCursor_spec]
  rfl

/-- What BYTE does: a store while Filling, nothing but the pulse while Full (R123, R126). -/
theorem execByte_cases (d : Byte) (s : State) :
    (∃ i : Index, i.val = s.cur.val ∧ execByte d s = .next (storeAtCursor d i s).emitArm) ∨
      (s.cur.val = 513 ∧ execByte d s = .next s.emitArm) := by
  unfold execByte
  cases h : fillIndex s.cur with
  | some i => exact .inl ⟨i, fillIndex_eq_some.1 h, rfl⟩
  | none => exact .inr ⟨fillIndex_eq_none.1 h, rfl⟩

/-! ## The address register -/

/-- What the end of SETADDR and INIT does (R110): the operand stored when legal, a failure and nothing else when
not. -/
theorem storeAddress_cases (v : AddrOperand) (s : State) :
    (∃ a : BaseAddr, a.val = v.toNat ∧ storeAddress v s = returnOk .empty (s.setAddr a)) ∨
      (¬ (1 ≤ v.toNat ∧ v.toNat ≤ 506) ∧ storeAddress v s = returnFail .invalidAddress s) := by
  unfold storeAddress
  cases h : addressOperand v with
  | some a => exact .inl ⟨a, addressOperand_eq_some.1 h, rfl⟩
  | none => exact .inr ⟨addressOperand_eq_none.1 h, rfl⟩

/-! ## The decoder and the compositor -/

/-- What every later segment of a DECODE leaves alone: the buffer, the receiver, the address, the parameters, and
what the agents have still to do (R140). -/
theorem resumeDecode_frame (d : DecodeProgress) (s : State) :
    (∀ i, (resumeDecode d s).readByte i = s.readByte i) ∧ (resumeDecode d s).buf = s.buf ∧
      (resumeDecode d s).cur = s.cur ∧ (resumeDecode d s).avail = s.avail ∧ (resumeDecode d s).addr = s.addr ∧
      (resumeDecode d s).cfg = s.cfg ∧ (resumeDecode d s).draw = s.draw ∧ (resumeDecode d s).events = s.events ∧
      (resumeDecode d s).commands = s.commands ∧ (resumeDecode d s).turns = s.turns := by
  cases d with
  | startRead a start =>
    unfold resumeDecode
    dsimp only
    split <;> exact ⟨fun _ => rfl, rfl, rfl, rfl, rfl, rfl, rfl, rfl, rfl, rfl⟩
  | _ => exact ⟨fun _ => rfl, rfl, rfl, rfl, rfl, rfl, rfl, rfl, rfl, rfl⟩

/-- What a later segment does to the counters, the progress and the trace: it refuses the start code, or it reads on,
or it answers (R141). -/
theorem resumeDecode_cases (d : DecodeProgress) (s : State) :
    (∃ a start, d = .startRead a start ∧ start ≠ Config.startCode ∧
      resumeDecode d s = returnFail .invalidStartCode (s.setProgress none).countInvalid) ∨
    (∃ d', resumeDecode d s = s.setProgress (some d')) ∨
    (∃ c, resumeDecode d s = returnOk (.decoded c) (s.setProgress none).countValid) := by
  cases d with
  | startRead a start =>
    by_cases h : start = Config.startCode
    · exact .inr (.inl ⟨_, if_pos h⟩)
    · exact .inl ⟨a, start, rfl, h, if_neg h⟩
  | dimmerRead => exact .inr (.inr ⟨_, rfl⟩)
  | _ => exact .inr (.inl ⟨_, rfl⟩)

/-- The scaled value as a number (R152): the quotient always fits a byte. -/
theorem scaleByte_toNat (c d : Byte) : (scaleByte c d).toNat = c.toNat * d.toNat / 255 := by
  have h : c.toNat * d.toNat ≤ 255 * 255 :=
    Nat.mul_le_mul (Nat.le_of_lt_succ c.isLt) (Nat.le_of_lt_succ d.isLt)
  simp only [scaleByte, BitVec.toNat_ofNat]
  show c.toNat * d.toNat / 255 % 2 ^ 8 = _
  omega

/-! ## The agents -/

/-- Everything the next action can be: nothing, a reset, an event, a segment, or a command. In each case the agent's
word and the turn are used up, and the step is entered in the trace. -/
theorem nextAction_cases (s : State) :
    (∃ ts, nextAction s = .idle { s with turns := ts }) ∨
    (∃ ts, s.turns = .rst :: ts ∧ nextAction s = .reset ({ s with turns := ts }.record .resetTaken)) ∨
    (∃ ts w es, s.turns = .transport :: ts ∧ s.events = w :: es ∧
      nextAction s =
        .run (decodeEvent w) ({ s with turns := ts, events := es }.record (.took (decodeEvent w)))) ∨
    (∃ ts d, s.turns = .consumer :: ts ∧ s.progress = some d ∧
      nextAction s = .resume d ({ s with turns := ts }.record .resumed)) ∨
    (∃ ts w cs i, s.turns = .consumer :: ts ∧ s.progress = none ∧ s.commands = w :: cs ∧
      decodeCommand w = .op i ∧
      nextAction s = .run i ({ s with turns := ts, commands := cs }.record (.took i))) ∨
    (∃ ts w cs code, s.turns = .consumer :: ts ∧ s.progress = none ∧ s.commands = w :: cs ∧
      decodeCommand w = .reserved code ∧
      nextAction s = .reserved ({ s with turns := ts, commands := cs }.record (.tookReserved code))) := by
  cases ht : s.turns with
  | nil =>
    refine .inl ⟨s.turns, ?_⟩
    simp only [nextAction, ht]
    rw [← ht]
  | cons u ts =>
    cases u with
    | rst => exact .inr (.inl ⟨ts, rfl, by simp [nextAction, ht]⟩)
    | transport =>
      cases he : s.events with
      | nil => exact .inl ⟨ts, by simp [nextAction, ht, transportMove, he]⟩
      | cons w es => exact .inr (.inr (.inl ⟨ts, w, es, rfl, rfl, by simp [nextAction, ht, transportMove, he]⟩))
    | consumer =>
      cases hp : s.progress with
      | some d => exact .inr (.inr (.inr (.inl ⟨ts, d, rfl, rfl, by simp [nextAction, ht, consumerMove, hp]⟩)))
      | none =>
        cases hc : s.commands with
        | nil => exact .inl ⟨ts, by simp [nextAction, ht, consumerMove, hp, hc]⟩
        | cons w cs =>
          cases hd : decodeCommand w with
          | op i =>
            exact .inr (.inr (.inr (.inr (.inl
              ⟨ts, w, cs, i, rfl, rfl, rfl, hd, by simp [nextAction, ht, consumerMove, hp, hc, hd]⟩))))
          | reserved code =>
            exact .inr (.inr (.inr (.inr (.inr
              ⟨ts, w, cs, code, rfl, rfl, rfl, hd, by simp [nextAction, ht, consumerMove, hp, hc, hd]⟩))))

/-- An idle step uses up the turn, if there is one, and changes nothing else. -/
theorem nextAction_idle {s t : State} (h : nextAction s = .idle t) : t = { s with turns := s.turns.tail } := by
  unfold nextAction transportMove consumerMove at h
  cases hs : s.turns with
  | nil =>
    rw [hs] at h
    cases h
    rw [List.tail_nil, ← hs]
  | cons u ts =>
    rw [hs] at h
    cases u with
    | rst => cases h
    | transport =>
      dsimp only at h
      split at h
      · cases h; rfl
      · cases h
    | consumer =>
      dsimp only at h
      split at h
      · cases h
      · split at h
        · cases h; rfl
        · split at h <;> cases h

/-- The consumer's step while a DECODE is in progress (R194). -/
theorem step_resume {s : State} {ts : List Turn} {d : DecodeProgress} (ht : s.turns = .consumer :: ts)
    (hp : s.progress = some d) :
    step s = .next (resumeDecode d ({ s with turns := ts }.record .resumed)) := by
  have ha : nextAction s = .resume d ({ s with turns := ts }.record .resumed) := by
    simp [nextAction, ht, consumerMove, hp]
  simp only [step, ha]

/-- An event word is a BREAK or a BYTE (R90). -/
theorem decodeEvent_cases (w : EventWord) : decodeEvent w = .brk ∨ ∃ d, decodeEvent w = .byte d := by
  unfold decodeEvent
  split
  · exact .inl rfl
  · exact .inr ⟨_, rfl⟩

/-- A command word of the consumer port is an operation of the consumer port, or reserved (R85, R92). -/
theorem decodeCommand_port {w : CommandWord} {i : Instr} (h : decodeCommand w = .op i) : i.port = .consumer := by
  unfold decodeCommand at h
  split at h <;> cases h <;> rfl

/-- An offered event word is what the next step runs. -/
theorem nextAction_offer_event (s : State) (w : EventWord) :
    nextAction (offerWord s (.ev w)) = .run (decodeEvent w) (s.record (.took (decodeEvent w))) := rfl

/-- An offered command word is what the next step runs. -/
theorem nextAction_offer_command (s : State) {w : CommandWord} {i : Instr} (h : decodeCommand w = .op i) :
    nextAction (offerWord s (.cmd w)) = .run i ((s.setProgress none).record (.took i)) := by
  simp [nextAction, offerWord, consumerMove, h, State.setProgress]

end Sys2Proof.Machine
end

