-- ==== Sys2Proof/Laws/PerInstr.lean ====
section
/-! SUPPORT. Per-operation families. `EncodedOnItsPort`: the word written for an operation stands on the operation's
own port, and the operation is well formed there (R91, R195). -/

namespace Sys2Proof.Laws.EncodedOnItsPort

def Statement (i : Instr) : Prop := (encode i).port = i.port ∧ i.wellFormed (encode i).port = true

theorem brk : Statement .brk := ⟨rfl, rfl⟩
theorem byte (d : Byte) : Statement (.byte d) := ⟨rfl, rfl⟩
theorem init (value : AddrOperand) : Statement (.init value) := ⟨rfl, rfl⟩
theorem setaddr (value : AddrOperand) : Statement (.setaddr value) := ⟨rfl, rfl⟩
theorem getaddr : Statement .getaddr := ⟨rfl, rfl⟩
theorem isavail : Statement .isavail := ⟨rfl, rfl⟩
theorem decode (p : Bool) : Statement (.decode p) := ⟨rfl, rfl⟩
theorem applydimmer (p : Bool) (c : Channels) : Statement (.applydimmer p c) := ⟨rfl, rfl⟩
theorem getstats : Statement .getstats := ⟨rfl, rfl⟩
theorem resetstats : Statement .resetstats := ⟨rfl, rfl⟩

end Sys2Proof.Laws.EncodedOnItsPort
end

