-- ==== Sys2Proof/Laws/Response.lean ====
section
/-! SUPPORT. The response word: the data field of a success stands in its low bits. -/

namespace Sys2Proof.Machine

/-- The low bits of a successful response word are its data (R88). -/
theorem responseWord_ok_getLsbD {w k : Nat} (x : BitVec (dataWidth w)) (d : RspData) (h : k < dataWidth w) :
    (responseWord w x (.ok d)).getLsbD k = (responseData w d).getLsbD k := by
  simp only [responseWord, BitVec.getLsbD_append, h]
  simp

/-- A field inside the data of a successful response word is that field of its data (R88, R89). -/
theorem responseWord_ok_extractLsb' {w : Nat} (x : BitVec (dataWidth w)) (d : RspData) {start len : Nat}
    (h : start + len ≤ dataWidth w) :
    (responseWord w x (.ok d)).extractLsb' start len = (responseData w d).extractLsb' start len := by
  apply BitVec.eq_of_getLsbD_eq
  intro i hi
  rw [BitVec.getLsbD_extractLsb', BitVec.getLsbD_extractLsb', responseWord_ok_getLsbD x d (by omega)]

end Sys2Proof.Machine
end

