-- ==== Sys2Proof/Laws/Runs.lean ====
section
/-! SUPPORT. Runs: how they join, and how the conditions on a run split. -/

namespace Sys2Proof.Machine

theorem reaches_add {m n : Nat} {s u t : State} (h : Reaches m s u) (h' : Reaches n u t) : Reaches (m + n) s t := by
  induction m generalizing s with
  | zero =>
    rw [Nat.zero_add]
    exact Eq.symm h ▸ h'
  | succ m ih =>
    obtain ⟨v, hv, hr⟩ := h
    rw [Nat.add_right_comm]
    exact ⟨v, hv, ih hr⟩

/-- A quiet run is quiet after any of its steps. -/
theorem quietFor_after {a : BaseAddr} {m n : Nat} {s u : State} (h : quietFor a (m + n) s = true)
    (hr : Reaches m s u) : quietFor a n u = true := by
  induction m generalizing s with
  | zero => rwa [Nat.zero_add, hr] at h
  | succ m ih =>
    obtain ⟨v, hv, hr⟩ := hr
    rw [Nat.add_right_comm, quietFor, hv, Bool.and_eq_true] at h
    exact ih h.2 hr

/-- A quiet run is quiet up to any of its steps. -/
theorem quietFor_upto {a : BaseAddr} {m n : Nat} {s : State} (h : quietFor a (m + n) s = true) :
    quietFor a m s = true := by
  induction m generalizing s with
  | zero => rfl
  | succ m ih =>
    rw [Nat.add_right_comm, quietFor, Bool.and_eq_true] at h
    rw [quietFor, Bool.and_eq_true]
    refine ⟨h.1, ?_⟩
    have h2 := h.2
    cases hs : step s with
    | next t => exact ih (by rwa [hs] at h2)
    | fault r => cases r
    | refused r => rfl

/-- What a run in which no frame is completed says of its first step and of the rest. -/
theorem completesNone_step {n : Nat} {s t : State} (h : completesNone (n + 1) s = true) (hs : step s = .next t) :
    completesNext s = false ∧ completesNone n t = true := by
  rw [completesNone, hs, Bool.and_eq_true, Bool.not_eq_true'] at h
  exact h

/-- What any operation does to the trace, the turns and the buffer: the trace grows, the turns stay, and only a BYTE
changes what an index reads, to its own byte. -/
theorem exec_extends {i : Instr} {s t : State} (h : exec i s = .next t) :
    (∃ new, t.trace = new ++ s.trace) ∧ t.turns = s.turns ∧
      ∀ j : Index, t.readByte j = s.readByte j ∨ i = .byte (t.readByte j) := by
  cases i with
  | byte d =>
    rcases execByte_cases d s with ⟨k, _, he⟩ | ⟨_, he⟩ <;> cases he.symm.trans h
    · refine ⟨⟨[.armNext], by rw [storeAtCursor_spec]; rfl⟩, by rw [storeAtCursor_spec]; rfl, fun j => ?_⟩
      rw [State.readByte_emitArm, storeAtCursor_readByte]
      split
      · exact .inr rfl
      · exact .inl rfl
    · exact ⟨⟨[.armNext], rfl⟩, rfl, fun _ => .inl rfl⟩
  | setaddr v =>
    cases h
    rcases storeAddress_cases v s with ⟨_, _, he⟩ | ⟨_, he⟩ <;> rw [he] <;> exact ⟨⟨[_], rfl⟩, rfl, fun _ => .inl rfl⟩
  | init v =>
    cases h
    rcases storeAddress_cases v s.registersAtReset.emitArm with ⟨_, _, he⟩ | ⟨_, he⟩ <;> rw [he] <;>
      exact ⟨⟨[_, _], rfl⟩, rfl, fun _ => .inl rfl⟩
  | decode p =>
    cases p <;> cases h
    · exact ⟨⟨[_], rfl⟩, rfl, fun _ => .inl rfl⟩
    · exact ⟨⟨[], rfl⟩, rfl, fun _ => .inl rfl⟩
  | applydimmer p c => cases p <;> cases h <;> exact ⟨⟨[_], rfl⟩, rfl, fun _ => .inl rfl⟩
  | brk =>
    cases h
    exact ⟨⟨[], rfl⟩, rfl, fun _ => .inl rfl⟩
  | _ =>
    cases h
    exact ⟨⟨[_], rfl⟩, rfl, fun _ => .inl rfl⟩

/-- The window of a legal address: every index that a DECODE reads is in it. -/
theorem inWindow_windowIndex (a : BaseAddr) (k : Fin Config.footprint) : inWindow a (windowIndex a k) = true := by
  have h : k.val ≤ 4 := Nat.le_of_lt_succ k.isLt
  simp [inWindow]
  omega

/-- An operation that the receiver's history does not look at: neither BYTE, nor ISAVAIL, nor one that rewinds, nor a
pulse. -/
def Entry.neutral : Entry → Bool
  | .took (.byte _) | .took .isavail | .took .brk | .took (.init _) | .resetTaken | .armNext => false
  | _ => true

theorem frameSoFar_neutral {e : Entry} (h : e.neutral = true) (es : List Entry) :
    frameSoFar (e :: es) = frameSoFar es := by
  cases e with
  | took i => cases i <;> first | rfl | exact (nomatch h)
  | resetTaken => exact (nomatch h)
  | _ => rfl

theorem announcementDue_neutral {e : Entry} (h : e.neutral = true) (es : List Entry) :
    announcementDue (e :: es) = announcementDue es := by
  cases e with
  | took i => cases i <;> first | rfl | exact (nomatch h)
  | resetTaken => exact (nomatch h)
  | _ => rfl

end Sys2Proof.Machine
end

