-- ==== Sys2Proof/Laws/Shorthand.lean ====
section
/-! SUPPORT. The shorthand FRAME: which level a channel carries. -/

namespace Sys2Proof.Machine

@[simp] theorem listedLevel_nil (i : Nat) : listedLevel [] i = 0#8 := rfl

@[simp] theorem listedLevel_cons (j : Nat) (v : Byte) (ls : List (Nat × Byte)) (i : Nat) :
    listedLevel ((j, v) :: ls) i = if j = i then v else listedLevel ls i := rfl

/-- Entries for other channels play no part. -/
theorem listedLevel_append {before : List (Nat × Byte)} {i : Nat} (h : ∀ u, (i, u) ∉ before)
    (ls : List (Nat × Byte)) : listedLevel (before ++ ls) i = listedLevel ls i := by
  induction before with
  | nil => rfl
  | cons c m ih =>
    have hc : c.1 ≠ i := fun e => h c.2 (by rw [← e]; exact List.mem_cons_self)
    rw [List.cons_append, listedLevel_cons, if_neg hc]
    exact ih fun u hu => h u (List.mem_cons_of_mem _ hu)

end Sys2Proof.Machine
end

