-- ==== Sys2Proof/Tests/Slice0.lean ====
section
/-! SUPPORT. Tests of one step each, with the expected results of spec/95_test_vectors.md (its row is named in each
comment), and one witness for the hypotheses of each statement that has any. -/

namespace Sys2Proof.Tests

open Sys2Proof.Machine

/-! ## Well-formedness: each check refuses an ill-formed term -/

theorem test_getaddr_refused_on_transport : Instr.getaddr.wellFormed .transport = false := by decide
theorem test_break_refused_on_consumer : Instr.brk.wellFormed .consumer = false := by decide
theorem test_event_word_of_ten_bits_refused : tableWordWellFormed 16 0x200 = false := by decide
theorem test_command_word_of_49_bits_refused : tableWordWellFormed 48 0x1000000000000 = false := by decide
theorem test_word_of_seven_bytes_refused : tableWordWellFormed 56 0 = false := by decide

/-! ## Decoding: words written out from R83 to R89 (vectors A1, A10, B3, B6, C1, C4, E1, E12, F2, F3, G1, G5) -/

theorem test_decode_break : decode (.ev 0b111111111#9) = .op .brk := by decide
theorem test_decode_byte : decode (.ev 0b011001000#9) = .op (.byte 0xC8#8) := by decide
theorem test_decode_init : decode (.cmd 0x00000000000A#48) = .op (.init 10#16) := by decide
theorem test_decode_setaddr : decode (.cmd 0x1EFFFFFF000A#48) = .op (.setaddr 10#16) := by decide
theorem test_decode_getaddr : decode (.cmd 0x200000000000#48) = .op .getaddr := by decide
theorem test_decode_isavail : decode (.cmd 0x300000000000#48) = .op .isavail := by decide
theorem test_decode_decode : decode (.cmd 0x410000000000#48) = .op (.decode true) := by decide
theorem test_decode_decode_null : decode (.cmd 0x400000000000#48) = .op (.decode false) := by decide
theorem test_decode_applydimmer :
    decode (.cmd 0x5107806496C8#48) = .op (.applydimmer true ⟨200#8, 150#8, 100#8, 128#8, 7#8⟩) := by decide
theorem test_decode_applydimmer_null :
    decode (.cmd 0x5007806496C8#48) = .op (.applydimmer false ⟨200#8, 150#8, 100#8, 128#8, 7#8⟩) := by decide
theorem test_decode_getstats : decode (.cmd 0x600000000000#48) = .op .getstats := by decide
theorem test_decode_resetstats : decode (.cmd 0x700000000000#48) = .op .resetstats := by decide
theorem test_decode_reserved : decode (.cmd 0x800000000000#48) = .reserved 8#4 := by decide
theorem test_table_word_break : decodeTableWord 16 0x100 = some .brk := by decide
theorem test_table_word_setaddr : decodeTableWord 48 0x1000000001FA = some (.setaddr 506#16) := by decide
theorem test_table_word_reserved : decodeTableWord 48 0xF00000000000 = none := by decide

/-! ## Small states -/

/-- A legal address as a state field. -/
def at10 : BaseAddr := { val := 10, legal := by decide }

/-- The buffer of vector C1: start code 0 and the window of address 10. -/
def bufC1 (start : Byte) : Memory := [(0, start), (10, 200#8), (11, 150#8), (12, 100#8), (13, 128#8), (14, 7#8)]

/-- The start state of vector C1. -/
def stateC1 (start : Byte) : State := { State.reset with buf := bufC1 start, addr := at10 }

/-- A state of the receiver with the given cursor and flag. -/
def receiverAt (c : Cursor) (b : Bool) : State := { State.reset with cur := c, avail := b }

/-- The outcome is a next state with this property. -/
def nextHas (o : Host.Outcome State Fault Refusal) (p : State → Bool) : Bool :=
  match o with
  | .next t => p t
  | _ => false

/-! ## One step of each operation -/

/-- Vector B3. -/
theorem test_break_from_full :
    nextHas (exec .brk (receiverAt 513 true)) (fun t => t.cur == 0 && !t.avail && t.trace == []) = true := by decide

/-- Vector B8. -/
theorem test_byte_completes_frame :
    nextHas (exec (.byte 0x7F#8) (receiverAt 512 false))
      (fun t => t.cur == 513 && t.avail && t.readByte 512 == 0x7F#8 && t.trace == [.armNext]) = true := by decide

/-- Vector B10. -/
theorem test_byte_dropped_when_full :
    nextHas (exec (.byte 0x55#8) (receiverAt 513 false))
      (fun t => t.cur == 513 && !t.avail && t.buf == [] && t.trace == [.armNext]) = true := by decide

/-- Vector B11. -/
theorem test_isavail_clears :
    nextHas (exec .isavail (receiverAt 513 true))
      (fun t => t.cur == 513 && !t.avail && t.trace == [.response (.ok (.flag true))]) = true := by decide

/-- Vector A2. -/
theorem test_setaddr_506 :
    nextHas (exec (.setaddr 506#16) State.reset)
      (fun t => t.addr.val == 506 && t.trace == [.response (.ok .empty)]) = true := by decide

/-- Vector A7. -/
theorem test_setaddr_507 :
    nextHas (exec (.setaddr 507#16) (stateC1 0#8))
      (fun t => t.addr.val == 10 && t.trace == [.response (.fail .invalidAddress)]) = true := by decide

/-- Vector A9. -/
theorem test_getaddr_after_reset :
    nextHas (exec .getaddr State.reset)
      (fun t => t.trace == [.response (.ok (.address BaseAddr.default))]) = true := by decide

/-- Vector G2. -/
theorem test_init_resets :
    nextHas (exec (.init 1#16) { receiverAt 513 true with addr := at10, valid := 5, invalid := 3 })
      (fun t => t.addr.val == 1 && t.cur == 0 && !t.avail && t.valid == 0 && t.invalid == 0 &&
        t.trace == [.response (.ok .empty), .armNext]) = true := by decide

/-- Vector G3. -/
theorem test_init_600 :
    nextHas (exec (.init 600#16) { receiverAt 77 false with addr := at10 })
      (fun t => t.addr.val == 1 && t.cur == 0 && t.trace == [.response (.fail .invalidAddress), .armNext]) = true := by
  decide

/-- Vector C1, the first segment. -/
theorem test_decode_first_segment :
    nextHas (exec (.decode true) (stateC1 0#8))
      (fun t => t.progress == some (.startRead at10 0#8) && t.valid == 0) = true := by decide

/-- Vector C1, the last segment. -/
theorem test_decode_last_segment :
    (let t := resumeDecode (.dimmerRead at10 200#8 150#8 100#8 128#8) (stateC1 0#8)
     t.valid == 1 && t.invalid == 0 && t.progress == none &&
      t.trace == [.response (.ok (.decoded ⟨200#8, 150#8, 100#8, 128#8, 7#8⟩))]) = true := by decide

/-- Vector S7, E1. -/
theorem test_applydimmer_source_example :
    nextHas (exec (.applydimmer true ⟨200#8, 150#8, 100#8, 128#8, 7#8⟩) State.reset)
      (fun t => t.trace == [.response (.ok (.dimmed ⟨100#8, 75#8, 50#8, 128#8, 7#8⟩))]) = true := by decide

/-- Vector E6. -/
theorem test_applydimmer_254 :
    nextHas (exec (.applydimmer true ⟨1#8, 2#8, 254#8, 254#8, 9#8⟩) State.reset)
      (fun t => t.trace == [.response (.ok (.dimmed ⟨0#8, 1#8, 253#8, 254#8, 9#8⟩))]) = true := by decide

/-- Vector F2. -/
theorem test_getstats :
    nextHas (exec .getstats { State.reset with valid := 2, invalid := 1 })
      (fun t => t.trace == [.response (.ok (.stats 2 1))] && t.valid == 2) = true := by decide

/-- Vector F3. -/
theorem test_resetstats :
    nextHas (exec .resetstats { State.reset with valid := 2, invalid := 1 })
      (fun t => t.valid == 0 && t.invalid == 0) = true := by decide

/-- Vectors C10, C11. -/
theorem test_counter_overflow :
    incCounter 32 .wrap 0xFFFFFFFF = 0 ∧ incCounter 32 .saturate 0xFFFFFFFF = 0xFFFFFFFF := by decide

/-- Vector G6, as a step. -/
theorem test_reserved_code :
    nextHas (step (State.reset.withFetchWord 48 0xF00000000000))
      (fun t => t.trace == [.response (.fail .reservedOperation), .tookReserved 15#4]) = true := by decide

/-- A placed event word is what the next step runs. -/
theorem test_step_runs_placed_event :
    nextHas (step (State.reset.withFetchWord 16 0x0C8))
      (fun t => t.cur == 1 && t.trace == [.armNext, .took (.byte 0xC8#8)]) = true := by decide

/-- Nothing is delivered: nothing changes. -/
theorem test_idle_step : nextHas (step State.reset) (fun t => t == State.reset) = true := by decide

/-! ## Response words (vectors A3, A8, C1, F2) -/

theorem test_response_invalid_address :
    responseWord 32 0#64 (.fail .invalidAddress) = 0x20000000000000000#68 := by decide
theorem test_response_address :
    responseWord 32 0#64 (.ok (.address { val := 506, legal := by decide })) = 0x800000000000001FA#68 := by decide
theorem test_response_channels :
    responseWord 32 0#64 (.ok (.decoded ⟨200#8, 150#8, 100#8, 128#8, 7#8⟩)) = 0x800000007806496C8#68 := by decide
theorem test_response_stats : responseWord 32 0#64 (.ok (.stats 2 1)) = 0x80000000100000002#68 := by decide

/-! ## Texts and shorthand (vectors E1, A4, programs P1, P2) -/

theorem test_text_applydimmer :
    operationText (.applydimmer true ⟨200#8, 150#8, 100#8, 128#8, 7#8⟩) = "APPLYDIMMER 200,150,100,128,7" := by decide
theorem test_text_setaddr : operationText (.setaddr 507#16) = "SETADDR 507" := by decide
theorem test_text_stats : responseText (.ok (.stats 0 1)) = "OK 0,1" := by decide
theorem test_frame_shorthand :
    (frameShorthand 0#8 [(10, 200#8), (11, 150#8)])[11]? = some (.byte 200#8) := by
  simp [frameShorthand, listedLevel]
theorem test_poll_shorthand :
    pollShorthand [.ok (.flag true), .ok (.decoded ⟨200#8, 150#8, 100#8, 128#8, 7#8⟩)] =
      some (.applydimmer true ⟨200#8, 150#8, 100#8, 128#8, 7#8⟩) := by decide

/-! ## Witnesses: the hypotheses of the statements can be met -/

/-- The command words DECODE and ISAVAIL. -/
def decodeWord : CommandWord := 0x410000000000#48
def isavailWord : CommandWord := 0x300000000000#48

theorem witness_ResetStepRestoresRegisters :
    { stateC1 0#8 with turns := [.rst] }.turns = .rst :: [] := by decide

theorem witness_StepRunsDeliveredEvent :
    { stateC1 0#8 with turns := [.transport], events := [0x100#9] }.turns = .transport :: [] ∧
      { stateC1 0#8 with turns := [.transport], events := [0x100#9] }.events = 0x100#9 :: [] := by decide

/-- A state at the consumer's turn with this command word next. -/
def withCommand (w : CommandWord) : State := { stateC1 0#8 with turns := [.consumer], commands := [w] }

theorem witness_StepRunsIssuedCommand :
    (withCommand decodeWord).turns = .consumer :: [] ∧ (withCommand decodeWord).progress = none ∧
      (withCommand decodeWord).commands = decodeWord :: [] ∧
      decodeCommand decodeWord = .op (.decode true) := by decide

theorem witness_StepAnswersReservedCode :
    (withCommand 0x800000000000#48).turns = .consumer :: [] ∧ (withCommand 0x800000000000#48).progress = none ∧
      (withCommand 0x800000000000#48).commands = 0x800000000000#48 :: [] ∧
      8 ≤ (opField 0x800000000000#48).toNat := by decide

/-- A state at the consumer's turn with this DECODE in progress. -/
def withProgress (d : DecodeProgress) : State := { stateC1 0#8 with turns := [.consumer], progress := some d }

theorem witness_ConsumerFinishesDecodeFirst :
    (withProgress (.startRead at10 0#8)).turns = .consumer :: [] ∧
      (withProgress (.startRead at10 0#8)).progress = some (.startRead at10 0#8) := by decide

/-- Each of the six clauses. -/
theorem witness_DecodeSegmentsReadCurrentBuffer :
    (withProgress (.startRead at10 1#8)).turns = .consumer :: [] ∧ (1#8 : Byte) ≠ 0#8 ∧
      (withProgress (.startRead at10 1#8)).progress = some (.startRead at10 1#8) ∧
      (withProgress (.startRead at10 0#8)).progress = some (.startRead at10 0#8) ∧
      (withProgress (.redRead at10 200#8)).progress = some (.redRead at10 200#8) ∧
      (withProgress (.greenRead at10 200#8 150#8)).progress = some (.greenRead at10 200#8 150#8) ∧
      (withProgress (.blueRead at10 200#8 150#8 100#8)).progress = some (.blueRead at10 200#8 150#8 100#8) ∧
      (withProgress (.dimmerRead at10 200#8 150#8 100#8 128#8)).progress =
        some (.dimmerRead at10 200#8 150#8 100#8 128#8) := by decide

/-- The encoding clause, the Filling state at both ends and the Full state. -/
theorem witness_ByteStoresOrIsDiscarded :
    (0x0FF#9 : EventWord).getLsbD 8 = false ∧ (receiverAt 0 false).cur.val < 513 ∧
      (receiverAt 512 false).cur.val < 513 ∧ (receiverAt 513 true).cur.val = 513 := by decide

theorem witness_BreakRewindsReceiver : (0x100#9 : EventWord).getLsbD 8 = true := by decide

/-- The encoding clauses of the statements about one command each. -/
theorem witness_encoding_clauses :
    opField 0x0000000001FA#48 = 0x0#4 ∧ opField 0x1000000001FA#48 = 0x1#4 ∧ opField 0x200000000000#48 = 0x2#4 ∧
      opField isavailWord = 0x3#4 ∧ opField decodeWord = 0x4#4 ∧ opField 0x5107806496C8#48 = 0x5#4 ∧
      opField 0x600000000000#48 = 0x6#4 ∧ opField 0x700000000000#48 = 0x7#4 := by decide

/-- The legal clause of SETADDR and INIT at both ends, and the illegal one at both its inner ends. -/
theorem witness_SetaddrStoresLegalAddressOnly :
    (1 ≤ (1#16 : AddrOperand).toNat ∧ (1#16 : AddrOperand).toNat ≤ 506) ∧
      (1 ≤ (506#16 : AddrOperand).toNat ∧ (506#16 : AddrOperand).toNat ≤ 506) ∧
      ((0#16 : AddrOperand).toNat = 0 ∨ 506 < (0#16 : AddrOperand).toNat) ∧
      ((507#16 : AddrOperand).toNat = 0 ∨ 506 < (507#16 : AddrOperand).toNat) := by decide

theorem witness_InitResetsThenSetsAddress :
    (1 ≤ (1#16 : AddrOperand).toNat ∧ (1#16 : AddrOperand).toNat ≤ 506) ∧
      (1 ≤ (506#16 : AddrOperand).toNat ∧ (506#16 : AddrOperand).toNat ≤ 506) ∧
      ((0#16 : AddrOperand).toNat = 0 ∨ 506 < (0#16 : AddrOperand).toNat) ∧
      ((507#16 : AddrOperand).toNat = 0 ∨ 506 < (507#16 : AddrOperand).toNat) := by decide

theorem witness_SetThenGetAddress :
    (1 ≤ (506#16 : AddrOperand).toNat ∧ (506#16 : AddrOperand).toNat ≤ 506) ∧
      ¬ (1 ≤ (507#16 : AddrOperand).toNat ∧ (507#16 : AddrOperand).toNat ≤ 506) := by decide

theorem witness_ScaledColourFacts : (1#8 : Byte).toNat ≤ (2#8 : Byte).toNat := by decide

theorem witness_CounterIncrementCases : 0 < 2 ^ 1 - 1 ∧ 1 = 2 ^ 1 - 1 := by decide

theorem witness_OverflowSettingsAgreeBelowMaximum : 3 ≤ 2 ^ 2 - 1 := by decide

/-- Two SETADDR words, two DECODE words, two APPLYDIMMER words and two BREAK words that differ in ignored bits. -/
theorem witness_IgnoredBitsPlayNoPart :
    (opField 0x1EFFFFFF000A#48 = opField 0x10000000000A#48 ∧
      addrField 0x1EFFFFFF000A#48 = addrField 0x10000000000A#48) ∧
    (opField 0x4F0000000001#48 = opField decodeWord ∧ presentField 0x4F0000000001#48 = presentField decodeWord) ∧
    (opField 0x5F07806496C8#48 = opField 0x5107806496C8#48 ∧
      presentField 0x5F07806496C8#48 = presentField 0x5107806496C8#48 ∧
      argField 0x5F07806496C8#48 = argField 0x5107806496C8#48) ∧
    (0x1FF#9 : EventWord).getLsbD 8 = true ∧ (0x100#9 : EventWord).getLsbD 8 = true := by decide

theorem witness_OnlyCodesEightToFifteenAreReserved :
    8 ≤ (opField 0x800000000000#48).toNat ∧ (opField 0x7FFFFFFFFFFF#48).toNat < 8 := by decide

/-- A state in mid-frame with one byte received and the next one due. -/
def midFrame : State :=
  { stateC1 0#8 with
    buf := [(0, 7#8)], cur := 1, valid := 1, turns := [.transport], events := [0x009#9],
    trace := [.armNext, .took (.byte 7#8), .response (.ok (.decoded ⟨0#8, 0#8, 0#8, 0#8, 0#8⟩))] }

theorem witness_StepKeepsInvariant : midFrame.Inv ∧ ∃ t, step midFrame = .next t :=
  ⟨⟨by decide, by decide, by decide, by decide⟩, _, rfl⟩

theorem witness_StepKeepsReceiverHistory : midFrame.ReceiverHistory ∧ ∃ t, step midFrame = .next t := by
  refine ⟨⟨by decide, fun i hi => ?_, by decide, by decide⟩, _, rfl⟩
  have h : i = 0 := Fin.ext (Nat.lt_one_iff.1 hi)
  subst h
  decide

theorem witness_StepKeepsCounterHistory : midFrame.CounterHistory ∧ ∃ t, step midFrame = .next t :=
  ⟨⟨by decide, by decide⟩, _, rfl⟩

/-- The first case, and the reset. -/
theorem witness_OnlyByteChangesBuffer :
    (∃ t, step { midFrame with buf := [(1, 8#8)] } = .next t ∧
      t.readByte 1 ≠ { midFrame with buf := [(1, 8#8)] }.readByte 1) ∧
    ∃ t, step { midFrame with buf := [(1, ~~~ Config.resetByte 1 1)], turns := [.rst] } = .next t ∧
      t.readByte 1 ≠ { midFrame with buf := [(1, ~~~ Config.resetByte 1 1)], turns := [.rst] }.readByte 1 := by
  refine ⟨⟨_, rfl, by decide⟩, _, rfl, ?_⟩
  show Config.resetByte 1 1 ≠ ~~~ Config.resetByte 1 1
  intro h
  have h0 := congrArg (fun b : Byte => b.getLsbD 0) h
  simp at h0

theorem witness_FlagRisesOnlyAtLastByte :
    ∃ t, step { receiverAt 512 false with turns := [.transport], events := [0x07F#9] } = .next t ∧
      (receiverAt 512 false).avail = false ∧ t.avail = true := ⟨_, rfl, by decide, by decide⟩

theorem witness_EventsLeaveConsumerRegisters :
    (Instr.byte 5#8).port = .transport ∧ (∃ t, exec (.byte 5#8) midFrame = .next t) ∧
      Instr.brk.port = .transport ∧ ∃ t, exec .brk midFrame = .next t := ⟨rfl, ⟨_, rfl⟩, rfl, _, rfl⟩

theorem witness_ConsumerLeavesReceiverState :
    Instr.isavail.port = .consumer ∧ (∃ t, exec .isavail midFrame = .next t) ∧
      (∀ v, Instr.isavail ≠ .init v) ∧ ∃ t, exec .getaddr (receiverAt 513 true) = .next t ∧ t.avail = true :=
  ⟨rfl, ⟨_, rfl⟩, nofun, _, rfl, rfl⟩

/-- SETADDR, INIT and the reset, each with a changed address. -/
theorem witness_AddressChangesOnlyBySetaddrOrInit :
    (∃ t, step (withCommand 0x1000000001FA#48) = .next t ∧ t.addr ≠ (withCommand 0x1000000001FA#48).addr) ∧
    (∃ t, step (withCommand 0x0000000001FA#48) = .next t ∧ t.addr ≠ (withCommand 0x0000000001FA#48).addr) ∧
    ∃ t, step { withCommand decodeWord with turns := [.rst] } = .next t ∧ t.addr ≠ (withCommand decodeWord).addr :=
  ⟨⟨_, rfl, by decide⟩, ⟨_, rfl, by decide⟩, _, rfl, by decide⟩

theorem witness_EventsCommuteWithConsumerRegisters :
    (Instr.byte 5#8).port = .transport ∧ ((∃ v, Instr.setaddr 9#16 = .setaddr v) ∨ Instr.setaddr 9#16 = .getaddr) :=
  ⟨rfl, .inl ⟨_, rfl⟩⟩

/-- A DECODE with one BYTE at its first boundary that stores outside the window. -/
def quietDecode (start : Byte) (ns : List Nat) : State :=
  { stateC1 start with
    cur := 20, events := [0x0AA#9], commands := [decodeWord], turns := consumerTurns ns [] }

theorem witness_QuietDecodeReturnsWindow :
    (quietDecode 0#8 [1, 0, 0, 0, 0]).progress = none ∧
      (quietDecode 0#8 [1, 0, 0, 0, 0]).commands = decodeWord :: [] ∧
      decodeCommand decodeWord = .op (.decode true) ∧ [1, 0, 0, 0, 0].length = 5 ∧
      (quietDecode 0#8 [1, 0, 0, 0, 0]).turns = consumerTurns [1, 0, 0, 0, 0] [] ∧
      quietFor (quietDecode 0#8 [1, 0, 0, 0, 0]).addr ([1, 0, 0, 0, 0].sum + 6) (quietDecode 0#8 [1, 0, 0, 0, 0]) =
        true ∧
      (quietDecode 0#8 [1, 0, 0, 0, 0]).readByte startIndex = 0#8 := by decide

theorem witness_DecodeRejectsBadStartCode :
    (quietDecode 1#8 [1]).progress = none ∧ (quietDecode 1#8 [1]).commands = decodeWord :: [] ∧
      decodeCommand decodeWord = .op (.decode true) ∧ (quietDecode 1#8 [1]).turns = consumerTurns [1] [] ∧
      (quietDecode 1#8 [1]).readByte startIndex ≠ 0#8 := by decide

/-- A BREAK and two BYTEs to come. -/
def breakAndBytes : State :=
  { receiverAt 300 false with
    events := [0x1FF#9, 0x00A#9, 0x0FF#9], turns := [.transport, .transport, .transport] }

theorem witness_BreakThenBytesFillsInOrder :
    breakAndBytes.events = 0x1FF#9 :: ([0x00A#9, 0x0FF#9] ++ []) ∧ decodeEvent 0x1FF#9 = .brk ∧
      [0x00A#9, 0x0FF#9].map decodeEvent = [0x0A#8, 0xFF#8].map .byte ∧
      breakAndBytes.turns = List.replicate ([0x0A#8, 0xFF#8].length + 1) .transport ++ [] := by decide

/-- A Full receiver, a BYTE and an ISAVAIL to come. -/
def fullThenPoll : State :=
  { receiverAt 513 true with
    events := [0x055#9], commands := [isavailWord], turns := [.transport, .consumer] }

theorem witness_FullReceiverHoldsFrame :
    fullThenPoll.cur.val = 513 ∧ neverRewinds 2 fullThenPoll = true ∧ ∃ t, Reaches 2 fullThenPoll t :=
  ⟨by decide, by decide, _, _, rfl, _, rfl, rfl⟩

/-- A state with a BREAK and 600 BYTEs of value 0xAA to come. -/
def breakAnd600 : State :=
  { receiverAt 77 false with
    events := 0x100#9 :: (List.replicate 600 0x0AA#9 ++ []), turns := List.replicate 601 .transport ++ [] }

/-- The run clause with 600 bytes, and the poll clause with a discarded BYTE between the two ISAVAILs. -/
theorem witness_ReceiverTestableLaws :
    (breakAnd600.events = 0x100#9 :: (List.replicate 600 0x0AA#9 ++ []) ∧ decodeEvent 0x100#9 = .brk ∧
      (List.replicate 600 0x0AA#9).map decodeEvent = (List.replicate 600 0xAA#8).map .byte ∧
      breakAnd600.turns = List.replicate ((List.replicate 600 0xAA#8).length + 1) .transport ++ [] ∧
      (List.replicate 600 0xAA#8).length = 600) ∧
    fullThenPoll.avail = true ∧ (∃ t, exec .isavail fullThenPoll = .next t ∧ completesNone 1 t = true ∧
      ∃ u, Reaches 1 t u) := by
  refine ⟨⟨rfl, rfl, ?_, ?_, List.length_replicate⟩, rfl, _, rfl, by decide, _, _, rfl, rfl⟩
  · rw [List.map_replicate, List.map_replicate]
    rfl
  · rw [List.length_replicate]
    rfl

/-! ### A whole frame of zeros, for the statements about an announced frame -/

/-- The trace of `n` BYTEs of value 0. -/
def zeroTrace : Nat → List Entry
  | 0 => []
  | n + 1 => .armNext :: .took (.byte 0#8) :: zeroTrace n

/-- `n` cells of value 0 from index `a` on. -/
def zeroCells : Nat → Nat → Memory
  | _, 0 => []
  | a, n + 1 => (a, 0#8) :: zeroCells (a + 1) n

theorem frameSoFar_zeroTrace (n : Nat) : frameSoFar (zeroTrace n) = List.replicate n 0#8 := by
  induction n with
  | zero => rfl
  | succ n ih =>
    show frameSoFar (zeroTrace n) ++ [0#8] = _
    rw [ih, List.replicate_succ']

theorem announcementDue_zeroTrace {n : Nat} (h : n + 1 = 513) : announcementDue (zeroTrace (n + 1)) = true := by
  show (if (frameSoFar (zeroTrace n)).length + 1 = 513 then true else announcementDue (zeroTrace n)) = true
  rw [frameSoFar_zeroTrace, List.length_replicate, if_pos h]

theorem armCount_zeroTrace (n : Nat) : armCount (zeroTrace n) = n ∧ armingCount (zeroTrace n) = n := by
  induction n with
  | zero => exact ⟨rfl, rfl⟩
  | succ n ih =>
    have h1 : armCount (zeroTrace (n + 1)) = armCount (zeroTrace n) + 1 := by simp [zeroTrace, armCount]
    have h2 : armingCount (zeroTrace (n + 1)) = armingCount (zeroTrace n) + 1 := by
      simp [zeroTrace, armingCount, List.countP_cons, Entry.arms]
    exact ⟨by rw [h1, ih.1], by rw [h2, ih.2]⟩

theorem peek_zeroCells (n : Nat) : ∀ a i, a ≤ i → i < a + n → Memory.peek (zeroCells a n) i = some 0#8 := by
  induction n with
  | zero => intro a i h1 h2; omega
  | succ n ih =>
    intro a i h1 h2
    rw [zeroCells, Memory.peek_cons]
    by_cases h : a = i
    · exact if_pos h
    · rw [if_neg h]
      exact ih (a + 1) i (by omega) (by omega)

theorem mem_zeroCells (n : Nat) : ∀ a, ∀ c ∈ zeroCells a n, a ≤ c.1 ∧ c.1 < a + n := by
  induction n with
  | zero => intro a c h; cases h
  | succ n ih =>
    intro a c h
    rcases List.mem_cons.1 h with rfl | h
    · exact ⟨Nat.le_refl _, Nat.lt_add_of_pos_right (Nat.succ_pos n)⟩
    · have := ih (a + 1) c h
      omega

theorem sorted_zeroCells (n : Nat) : ∀ a, ((zeroCells a n).map (fun c => c.1)).Pairwise (· < ·) := by
  induction n with
  | zero => intro a; exact List.Pairwise.nil
  | succ n ih =>
    intro a
    refine List.pairwise_cons.2 ⟨fun x hx => ?_, ih (a + 1)⟩
    obtain ⟨c, hc, rfl⟩ := List.mem_map.1 hx
    exact (mem_zeroCells n (a + 1) c hc).1

/-- A frame of 513 zeros is announced; the consumer is about to poll and to decode, with no event between. -/
def announcedZeros : State :=
  { receiverAt 513 true with
    buf := zeroCells 0 513, trace := zeroTrace 513, commands := [isavailWord, decodeWord],
    turns := consumerTurns [0, 0, 0, 0, 0, 0] [] }

theorem announcedZeros_inv : announcedZeros.Inv :=
  ⟨⟨sorted_zeroCells 513 0, fun c hc => (mem_zeroCells 513 0 c hc).2⟩, fun _ => rfl, by decide, by decide⟩

theorem announcedZeros_history : announcedZeros.ReceiverHistory := by
  refine ⟨?_, fun i _ => ?_, (announcementDue_zeroTrace (n := 512) rfl).symm, ?_⟩
  · show 513 = min (frameSoFar (zeroTrace 513)).length 513
    rw [frameSoFar_zeroTrace, List.length_replicate]
    rfl
  · show (frameSoFar (zeroTrace 513))[i.val]? = some ((Memory.peek (zeroCells 0 513) i.val).getD _)
    rw [frameSoFar_zeroTrace, peek_zeroCells 513 0 i.val (Nat.zero_le _) (by rw [Nat.zero_add]; exact i.isLt)]
    exact List.getElem?_replicate_of_lt i.isLt
  · exact (armCount_zeroTrace 513).1.trans (armCount_zeroTrace 513).2.symm

theorem witness_AnnouncedFrameIsWhole :
    announcedZeros.Inv ∧ announcedZeros.ReceiverHistory ∧ announcedZeros.avail = true :=
  ⟨announcedZeros_inv, announcedZeros_history, rfl⟩

theorem witness_ReadsAnnouncedFrameOrNewer :
    announcedZeros.Inv ∧ announcedZeros.ReceiverHistory ∧ announcedZeros.avail = true ∧
      .rst ∉ announcedZeros.turns ∧ ∃ t, Reaches 1 announcedZeros t :=
  ⟨announcedZeros_inv, announcedZeros_history, rfl, by decide, _, _, rfl, rfl⟩

/-- Channel 1 listed twice, and channel 512 not listed. -/
theorem witness_FrameShorthandIsWholeFrame :
    [(1, 9#8), (1, 8#8)] = [] ++ ((1, 9#8) : Nat × Byte) :: [(1, 8#8)] ∧
      (∀ u : Byte, (1, u) ∉ ([] : List (Nat × Byte))) ∧
      ∀ u : Byte, (512, u) ∉ [((1, 9#8) : Nat × Byte), (1, 8#8)] :=
  ⟨rfl, by simp, by simp⟩

/-- A step from reset that takes neither a SETADDR nor an INIT. -/
theorem witness_GetaddrAnswersAddress :
    (offerWord State.reset (.ev 0x100#9)).addr.val = 1 ∧
      (∃ t, step (offerWord State.reset (.ev 0x100#9)) = .next t) ∧
      (∀ v u, nextAction (offerWord State.reset (.ev 0x100#9)) ≠ .run (.setaddr v) u) ∧
      ∀ v u, nextAction (offerWord State.reset (.ev 0x100#9)) ≠ .run (.init v) u := by
  have hb : decodeEvent 0x100#9 = .brk := by decide
  refine ⟨rfl, ⟨_, rfl⟩, fun v u h => ?_, fun v u h => ?_⟩ <;> rw [nextAction_offer_event, hb] at h <;> cases h

/-- Each field with a bit above it, and counters at both ends of their range. -/
theorem witness_ResponseWordFields :
    (9 ≤ 39 ∧ 39 < dataWidth 0) ∧ (40 ≤ 63 ∧ 63 < dataWidth 32) ∧ (2 * 8 ≤ 16 ∧ 16 < dataWidth 8) ∧
      0 < 2 ^ 0 ∧ 2 ^ 32 - 1 < 2 ^ 32 := by decide

theorem witness_PollInTimeReturnsAnnouncedFrame :
    announcedZeros.Inv ∧ announcedZeros.ReceiverHistory ∧ announcedZeros.avail = true ∧
      announcedZeros.progress = none ∧ announcedZeros.commands = isavailWord :: decodeWord :: [] ∧
      decodeCommand isavailWord = .op .isavail ∧ decodeCommand decodeWord = .op (.decode true) ∧
      [0, 0, 0, 0, 0, 0].length = 6 ∧ announcedZeros.turns = consumerTurns [0, 0, 0, 0, 0, 0] [] ∧
      quietFor announcedZeros.addr ([0, 0, 0, 0, 0, 0].sum + 7) announcedZeros = true ∧
      (frameSoFar announcedZeros.trace)[0]? = some 0#8 := by
  refine ⟨announcedZeros_inv, announcedZeros_history, rfl, rfl, rfl, by decide, by decide, rfl, rfl, rfl, ?_⟩
  show (frameSoFar (zeroTrace 513))[0]? = _
  rw [frameSoFar_zeroTrace]
  rfl

end Sys2Proof.Tests
end

