-- ==== Sys2Proof/Proofs/Scope.lean ====
section
/-! PROOFS. The scope (spec/00_scope.md R12, R14): what the step at each agent's turn is, and that no step stops. -/

namespace Sys2Proof.Machine

/-! ## Well-formed operations -/

theorem wellFormed_iff_port {p : Port} {i : Instr} : i.wellFormed p = true ↔ i.port = p :=
  decide_eq_true_iff

/-- An event word stands for an operation of the transport port (R90, R91). -/
theorem decodeEvent_port (w : EventWord) : (decodeEvent w).port = .transport := by
  rcases decodeEvent_cases w with h | ⟨d, h⟩ <;> rw [h] <;> rfl

/-! ## The step at an agent's turn -/

theorem step_of_run {s t : State} {i : Instr} (h : nextAction s = .run i t) : step s = exec i t := by
  simp only [step, h]

/-- The transport's step: the operation of its next event word, whole (R12, R187). -/
theorem step_event {s : State} {ts : List Turn} {w : EventWord} {es : List EventWord}
    (ht : s.turns = .transport :: ts) (he : s.events = w :: es) :
    step s = exec (decodeEvent w) ({ s with turns := ts, events := es }.record (.took (decodeEvent w))) := by
  apply step_of_run
  simp only [nextAction, ht, transportMove, he]

/-- The consumer's step with no DECODE in progress: the operation of its next command word (R12, R85). -/
theorem step_command {s : State} {ts : List Turn} {w : CommandWord} {cs : List CommandWord} {i : Instr}
    (ht : s.turns = .consumer :: ts) (hp : s.progress = none) (hc : s.commands = w :: cs)
    (hd : decodeCommand w = .op i) :
    step s = exec i ({ s with turns := ts, commands := cs }.record (.took i)) := by
  apply step_of_run
  simp only [nextAction, ht, consumerMove, hp, hc, hd]

/-- A later segment of a DECODE outputs nothing, or ends the DECODE with one response (R141, R194). -/
theorem resumeDecode_silent_or_ends (d : DecodeProgress) (s : State) :
    (resumeDecode d s).trace = s.trace ∨
      ∃ r, (resumeDecode d s).progress = none ∧ (resumeDecode d s).trace = .response r :: s.trace := by
  rcases resumeDecode_cases d s with ⟨_, _, _, _, hrefuses⟩ | ⟨_, hreads⟩ | ⟨c, hanswers⟩
  · exact .inr ⟨.fail .invalidStartCode, by simp [hrefuses]⟩
  · exact .inl (by simp [hreads])
  · exact .inr ⟨.ok (.decoded c), by simp [hanswers]⟩

/-! ## Nothing stops -/

/-- R14: every operation is enabled in every state. -/
theorem exec_enabled (i : Instr) (s : State) : ∃ t, exec i s = .next t := by
  cases i with
  | byte d => rcases execByte_cases d s with ⟨_, _, h⟩ | ⟨_, h⟩ <;> exact ⟨_, h⟩
  | decode p => cases p <;> exact ⟨_, rfl⟩
  | applydimmer p c => cases p <;> exact ⟨_, rfl⟩
  | _ => exact ⟨_, rfl⟩

/-- R14: no step stops. Only an action that runs an operation could, and each operation is enabled. -/
theorem step_enabled (s : State) : ∃ t, step s = .next t := by
  cases ha : nextAction s with
  | run i t => exact step_of_run ha ▸ exec_enabled i t
  | _ => simp [step, ha]

/-! ## The statements -/

/-- Settles O3: the word's operation is one of the transport port, and the transport's step is that operation. -/
theorem stepRunsDeliveredEvent : Obligations.StepRunsDeliveredEvent := by
  intro s ts w es ht he
  exact ⟨wellFormed_iff_port.2 (decodeEvent_port w), step_event ht he⟩

/-- Settles O4: a decoded command is one of the consumer port, and the consumer's step is that operation. -/
theorem stepRunsIssuedCommand : Obligations.StepRunsIssuedCommand := by
  intro s ts w cs i ht hp hc hd
  exact ⟨wellFormed_iff_port.2 (decodeCommand_port hd), step_command ht hp hc hd⟩

/-- Settles O6: the consumer's step is the next segment, with its frame and its two possible outputs. -/
theorem consumerFinishesDecodeFirst : Obligations.ConsumerFinishesDecodeFirst := by
  intro s ts d ht hp
  obtain ⟨hread, -, hcur, havail, haddr, hcfg, hdraw, hevents, hcommands, hturns⟩ :=
    resumeDecode_frame d ({ s with turns := ts }.record .resumed)
  exact ⟨_, step_resume ht hp, hcommands, hevents, hturns, hread, ⟨hcur, havail⟩, haddr, hcfg, hdraw,
    resumeDecode_silent_or_ends d _⟩

/-- Settles O8: no operation and no step faults or is refused. -/
theorem everyOperationIsEnabled : Obligations.EveryOperationIsEnabled :=
  ⟨exec_enabled, step_enabled⟩

end Sys2Proof.Machine
end

/-! PROOFS. The state (spec/10_state.md): who may change the buffer, the cursor, the flag, the address and the
counters, and the invariants that every step keeps (R20 to R34). -/

namespace Sys2Proof.Machine

/-! ## What each operation does -/

/-- An entry that the counters' history does not look at: no DECODE outcome, and nothing that clears them. -/
def Entry.uncounted : Entry → Bool
  | .response (.ok (.decoded _)) | .response (.fail .invalidStartCode) => false
  | e => !e.clearsCounters

/-- What an operation can do to a state, one constructor for each kind of effect. The operations that do nothing but
answer are one kind: neither history looks at them. -/
inductive Effect (s : State) : Instr → State → Prop
  | brk : Effect s .brk (s.setCur ⟨0, by decide⟩).clearAvail
  | stored (d : Byte) (k : Index) (hk : k.val = s.cur.val) : Effect s (.byte d) (storeAtCursor d k s).emitArm
  | discarded (d : Byte) (hfull : s.cur.val = 513) : Effect s (.byte d) s.emitArm
  | init (v : AddrOperand) (a : BaseAddr) (r : Response) (hr : (Entry.response r).uncounted = true) :
      Effect s (.init v) ((s.registersAtReset.emitArm.setAddr a).respond r)
  | setaddr (v : AddrOperand) (a : BaseAddr) (r : Response) (hr : (Entry.response r).uncounted = true) :
      Effect s (.setaddr v) ((s.setAddr a).respond r)
  | isavail : Effect s .isavail (s.clearAvail.respond (.ok (.flag s.avail)))
  | decodeBegun (p : DecodeProgress) : Effect s (.decode true) (s.setProgress (some p))
  | resetstats : Effect s .resetstats (s.clearCounters.respond (.ok .empty))
  | answered (i : Instr) (r : Response) (hi : (Entry.took i).neutral = true) (hi' : (Entry.took i).uncounted = true)
      (hr : (Entry.response r).uncounted = true) : Effect s i (s.respond r)

/-- The end of SETADDR and INIT as one form: an address, the old one if the operand is illegal, and a response. -/
theorem storeAddress_eq_respond (v : AddrOperand) (s : State) :
    ∃ a r, (Entry.response r).uncounted = true ∧ storeAddress v s = (s.setAddr a).respond r := by
  rcases storeAddress_cases v s with ⟨a, -, hlegal⟩ | ⟨-, hillegal⟩
  · exact ⟨a, .ok .empty, rfl, hlegal⟩
  · exact ⟨s.addr, .fail .invalidAddress, rfl, hillegal⟩

/-- Every operation has one of these effects, so a fact about all operations is shown effect by effect. -/
theorem exec_effect {i : Instr} {s t : State} (h : exec i s = .next t) : Effect s i t := by
  cases i with
  | brk => cases h; exact .brk
  | byte d =>
    rcases execByte_cases d s with ⟨k, hk, hx⟩ | ⟨hfull, hx⟩ <;> cases hx.symm.trans h
    · exact .stored d k hk
    · exact .discarded d hfull
  | init v =>
    cases h
    obtain ⟨a, r, hr, hx⟩ := storeAddress_eq_respond v s.registersAtReset.emitArm
    rw [hx]
    exact .init v a r hr
  | setaddr v =>
    cases h
    obtain ⟨a, r, hr, hx⟩ := storeAddress_eq_respond v s
    rw [hx]
    exact .setaddr v a r hr
  | isavail => cases h; exact .isavail
  | decode p =>
    cases p <;> cases h
    · exact .answered _ _ rfl rfl rfl
    · exact .decodeBegun _
  | applydimmer p c => cases p <;> cases h <;> exact .answered _ _ rfl rfl rfl
  | resetstats => cases h; exact .resetstats
  | getaddr => cases h; exact .answered _ _ rfl rfl rfl
  | getstats => cases h; exact .answered _ _ rfl rfl rfl

/-! ## What each step does -/

/-- `s` with what the outside agents have still to do replaced. -/
def State.withAgents (s : State) (es : List EventWord) (cs : List CommandWord) (ts : List Turn) : State :=
  { s with events := es, commands := cs, turns := ts }

section
variable (s : State) (es : List EventWord) (cs : List CommandWord) (ts : List Turn)

@[simp] theorem State.withAgents_cur : (s.withAgents es cs ts).cur = s.cur := rfl
@[simp] theorem State.withAgents_avail : (s.withAgents es cs ts).avail = s.avail := rfl
@[simp] theorem State.withAgents_addr : (s.withAgents es cs ts).addr = s.addr := rfl

end

/-- What a step can do to a state, one constructor for each action. -/
inductive StepsTo (s : State) : State → Prop
  | idle (ts : List Turn) : StepsTo s (s.withAgents s.events s.commands ts)
  | reset (ts : List Turn) (ht : s.turns = .rst :: ts) :
      StepsTo s (takeReset ((s.withAgents s.events s.commands ts).record .resetTaken))
  | run (i : Instr) (es : List EventWord) (cs : List CommandWord) (ts : List Turn) (t : State)
      (ha : nextAction s = .run i ((s.withAgents es cs ts).record (.took i)))
      (hx : exec i ((s.withAgents es cs ts).record (.took i)) = .next t) : StepsTo s t
  | reserved (code : OpCode) (cs : List CommandWord) (ts : List Turn) :
      StepsTo s (takeReserved ((s.withAgents s.events cs ts).record (.tookReserved code)))
  | resume (d : DecodeProgress) (ts : List Turn) :
      StepsTo s (resumeDecode d ((s.withAgents s.events s.commands ts).record .resumed))

/-- Every step does one of these, so a fact about all steps is shown action by action. -/
theorem stepsTo_of_step {s t : State} (h : step s = .next t) : StepsTo s t := by
  rcases nextAction_cases s with ⟨ts, ha⟩ | ⟨ts, ht, ha⟩ | ⟨ts, w, es, -, -, ha⟩ | ⟨ts, d, -, -, ha⟩ |
    ⟨ts, w, cs, i, -, -, -, -, ha⟩ | ⟨ts, w, cs, code, -, -, -, -, ha⟩ <;> simp only [step, ha] at h
  · cases h; exact .idle ts
  · cases h; exact .reset ts ht
  · exact .run _ es s.commands ts t ha h
  · cases h; exact .resume d ts
  · exact .run i s.events cs ts t ha h
  · cases h; exact .reserved code cs ts

/-- How a property of states is shown to be kept by every step: it does not look at the agents, and each of the four
actions keeps it. -/
theorem step_keeps {P : State → Prop} (agents : ∀ s es cs ts, P s → P (s.withAgents es cs ts))
    (reset : ∀ s, P s → P (takeReset (s.record .resetTaken)))
    (run : ∀ i s t, P s → exec i (s.record (.took i)) = .next t → P t)
    (reserved : ∀ s code, P s → P (takeReserved (s.record (.tookReserved code))))
    (resume : ∀ s d, P s → P (resumeDecode d (s.record .resumed)))
    {s t : State} (h : P s) (hs : step s = .next t) : P t := by
  cases stepsTo_of_step hs with
  | idle ts => exact agents _ _ _ _ h
  | reset ts => exact reset _ (agents _ _ _ _ h)
  | run i es cs ts _ _ hx => exact run i _ _ (agents _ _ _ _ h) hx
  | reserved code cs ts => exact reserved _ code (agents _ _ _ _ h)
  | resume d ts => exact resume _ d (agents _ _ _ _ h)

/-! ## Who changes a register -/

/-- R21: an operation changes only the index that a BYTE in the Filling state stores to. -/
theorem exec_readByte {i : Instr} {s t : State} (h : exec i s = .next t) (j : Index) :
    t.readByte j = s.readByte j ∨ ∃ d, i = .byte d ∧ j.val = s.cur.val := by
  cases exec_effect h with
  | stored d k hk =>
    by_cases hkj : k = j
    · exact .inr ⟨d, rfl, hkj ▸ hk⟩
    · exact .inl (by simp [storeAtCursor_readByte, hkj])
  | _ => exact .inl rfl

/-- R22: an operation moves the cursor only if it is a BREAK or an INIT, or a BYTE in the Filling state. -/
theorem exec_cur {i : Instr} {s t : State} (h : exec i s = .next t) :
    t.cur = s.cur ∨ i = .brk ∨ (∃ v, i = .init v) ∨ ((∃ d, i = .byte d) ∧ s.cur.val < 513) := by
  cases exec_effect h with
  | brk => exact .inr (.inl rfl)
  | init v => exact .inr (.inr (.inl ⟨v, rfl⟩))
  | stored d k hk => exact .inr (.inr (.inr ⟨⟨d, rfl⟩, hk ▸ k.isLt⟩))
  | _ => exact .inl rfl

/-- R23: an operation raises the flag only if it is the BYTE that stores to index 512. -/
theorem exec_avail {i : Instr} {s t : State} (h : exec i s = .next t) (ht : t.avail = true) :
    s.avail = true ∨ ((∃ d, i = .byte d) ∧ s.cur.val = 512 ∧ t.cur.val = 513) := by
  cases exec_effect h with
  | brk | init | isavail => cases ht
  | stored d k hk =>
    simp only [State.emitArm_avail, storeAtCursor_spec, Bool.or_eq_true, decide_eq_true_iff] at ht
    refine ht.imp_right fun hlast => ⟨⟨d, rfl⟩, hk ▸ hlast, ?_⟩
    simp [storeAtCursor_spec, hlast]
  | _ => exact .inl ht

/-- R24: an operation changes the address only if it is a SETADDR or an INIT. -/
theorem exec_addr {i : Instr} {s t : State} (h : exec i s = .next t) :
    t.addr = s.addr ∨ (∃ v, i = .setaddr v) ∨ ∃ v, i = .init v := by
  cases exec_effect h with
  | setaddr v => exact .inr (.inl ⟨v, rfl⟩)
  | init v => exact .inr (.inr ⟨v, rfl⟩)
  | stored => exact .inl (by simp [storeAtCursor_spec])
  | _ => exact .inl rfl

/-- The index that the next step stores to is the cursor. -/
theorem storesNext_of_byte {s u : State} {d : Byte} {j : Index} (ha : nextAction s = .run (.byte d) u)
    (hj : j.val = u.cur.val) : storesNext s = some j := by
  simpa only [storesNext, ha] using fillIndex_eq_some.2 hj

/-- R21: a step changes only the index that it stores to, or is a reset. -/
theorem step_readByte {s t : State} (h : step s = .next t) (j : Index) :
    t.readByte j = s.readByte j ∨ (storesNext s = some j ∧ j.val = s.cur.val) ∨ ∃ ts, s.turns = .rst :: ts := by
  cases stepsTo_of_step h with
  | reset ts ht => exact .inr (.inr ⟨ts, ht⟩)
  | run i es cs ts _ ha hx =>
    rcases exec_readByte hx j with hsame | ⟨d, rfl, hj⟩
    · exact .inl hsame
    · exact .inr (.inl ⟨storesNext_of_byte ha hj, hj⟩)
  | resume d ts =>
    obtain ⟨hread, -⟩ := resumeDecode_frame d ((s.withAgents s.events s.commands ts).record .resumed)
    exact .inl (hread j)
  | _ => exact .inl rfl

/-- R22: a step moves the cursor only if it rewinds the receiver or the receiver is Filling. -/
theorem step_cur {s t : State} (h : step s = .next t) :
    t.cur = s.cur ∨ rewindsNext s = true ∨ s.cur.val < 513 := by
  cases stepsTo_of_step h with
  | reset ts ht => exact .inr (.inl (by simp [rewindsNext, nextAction, ht]))
  | run i es cs ts _ ha hx =>
    rcases exec_cur hx with hsame | rfl | ⟨v, rfl⟩ | ⟨-, hfilling⟩
    · exact .inl hsame
    · exact .inr (.inl (by simp [rewindsNext, ha]))
    · exact .inr (.inl (by simp [rewindsNext, ha]))
    · exact .inr (.inr hfilling)
  | resume d ts => exact .inl (by simp [resumeDecode_frame])
  | _ => exact .inl rfl

/-- R23: a step raises the flag only by storing the byte of index 512. -/
theorem step_avail {s t : State} (h : step s = .next t) (ht : t.avail = true) :
    s.avail = true ∨
      (s.cur.val = 512 ∧ t.cur.val = 513 ∧ ∃ i : Index, storesNext s = some i ∧ i.val = 512) := by
  cases stepsTo_of_step h with
  | reset => cases ht
  | run i es cs ts _ ha hx =>
    refine (exec_avail hx ht).imp_right ?_
    rintro ⟨⟨d, rfl⟩, hlast, hfull⟩
    exact ⟨hlast, hfull, ⟨512, by decide⟩, storesNext_of_byte ha hlast.symm, rfl⟩
  | resume d ts => exact .inl (by simpa [resumeDecode_frame] using ht)
  | _ => exact .inl ht

/-! ## Independent operations -/

/-- A new buffer, cursor and flag, and outputs: what an event operation can write. -/
def State.withReceiver (s : State) (m : Memory) (c : Cursor) (b : Bool) (out : List Entry) : State :=
  { s with buf := m, cur := c, avail := b, trace := out ++ s.trace }

/-- A new address and new counters, and a response: what an operation on the consumer's registers can write. -/
def State.withRegisters (s : State) (a : BaseAddr) (v n : Nat) (r : Response) : State :=
  { s with addr := a, valid := v, invalid := n, trace := .response r :: s.trace }

/-- R27: an event operation reads and writes the receiver alone: in every state with the same cursor, flag and buffer
it writes the same. -/
theorem exec_event_local {e : Instr} (he : e.port = .transport) (s : State) :
    ∃ m c b out, ∀ t : State, t.buf = s.buf → t.cur = s.cur → t.avail = s.avail →
      exec e t = .next (t.withReceiver m c b out) := by
  cases e with
  | brk =>
    refine ⟨s.buf, ⟨0, by decide⟩, false, [], fun t hbuf _ _ => ?_⟩
    rw [← hbuf]
    rfl
  | byte d =>
    rcases execByte_cases d s with ⟨k, hk, -⟩ | ⟨hfull, -⟩
    · refine ⟨Memory.poke s.buf k.val d, nextCursor k, s.avail || decide (k.val = 512), [.armNext],
        fun t hbuf hcur havail => ?_⟩
      have hfill : fillIndex t.cur = some k := fillIndex_eq_some.2 (hcur ▸ hk)
      simp only [exec, execByte, hfill, storeAtCursor_spec, hbuf, havail]
      rfl
    · refine ⟨s.buf, s.cur, s.avail, [.armNext], fun t hbuf hcur havail => ?_⟩
      have hfill : fillIndex t.cur = none := fillIndex_eq_none.2 (hcur ▸ hfull)
      simp only [exec, execByte, hfill, ← hbuf, ← hcur, ← havail]
      rfl
  | _ => cases he

/-- The operations on registers that only the consumer has read and write the address and the counters alone, whatever
the receiver holds. -/
theorem exec_register_local {c : Instr}
    (hc : (∃ v, c = .setaddr v) ∨ c = .getaddr ∨ (∃ p ch, c = .applydimmer p ch) ∨ c = .getstats ∨
      c = .resetstats) :
    ∃ (fa : BaseAddr → BaseAddr) (fn : Nat → Nat) (fr : BaseAddr → Nat → Nat → Response), ∀ s : State,
      exec c s =
        .next (s.withRegisters (fa s.addr) (fn s.valid) (fn s.invalid) (fr s.addr s.valid s.invalid)) := by
  rcases hc with ⟨v, rfl⟩ | rfl | ⟨p, ch, rfl⟩ | rfl | rfl
  · cases hv : addressOperand v with
    | some a =>
      refine ⟨fun _ => a, id, fun _ _ _ => .ok .empty, fun s => ?_⟩
      simp only [exec, execSetaddr, storeAddress, hv]
      rfl
    | none =>
      refine ⟨id, id, fun _ _ _ => .fail .invalidAddress, fun s => ?_⟩
      simp only [exec, execSetaddr, storeAddress, hv]
      rfl
  · exact ⟨id, id, fun a _ _ => .ok (.address a), fun _ => rfl⟩
  · cases p
    · exact ⟨id, id, fun _ _ _ => .fail .nullArgument, fun _ => rfl⟩
    · exact ⟨id, id, fun _ _ _ => .ok (.dimmed (scaleChannels ch)), fun _ => rfl⟩
  · exact ⟨id, id, fun _ v n => .ok (.stats v n), fun _ => rfl⟩
  · exact ⟨id, fun _ => 0, fun _ _ _ => .ok .empty, fun _ => rfl⟩

/-! ## The invariant of R33 -/

/-- The invariant looks at the buffer, the cursor, the flag, the counters and their width. -/
theorem State.Inv.congr {s t : State} (h : s.Inv) (hbuf : t.buf = s.buf) (hcur : t.cur = s.cur)
    (havail : t.avail = s.avail) (hvalid : t.valid = s.valid) (hinvalid : t.invalid = s.invalid)
    (hcfg : t.cfg = s.cfg) : t.Inv :=
  ⟨hbuf ▸ h.buffer, havail ▸ hcur ▸ h.availFull, hvalid ▸ hcfg ▸ h.validLegal, hinvalid ▸ hcfg ▸ h.invalidLegal⟩

/-- The invariant holds with the flag down and the counters at 0, if the buffer is canonical. -/
theorem State.Inv.of_cleared {s : State} (hbuf : Memory.wf s.buf) (havail : s.avail = false) (hvalid : s.valid = 0)
    (hinvalid : s.invalid = 0) : s.Inv where
  buffer := hbuf
  availFull := by simp [havail]
  validLegal := by simp [hvalid]
  invalidLegal := by simp [hinvalid]

theorem exec_keeps_inv {i : Instr} {s t : State} (h : s.Inv) (hx : exec i s = .next t) : t.Inv := by
  cases exec_effect hx with
  | brk => exact { h with availFull := nofun }
  | stored d k hk =>
    refine ⟨?_, fun ht => ?_, ?_, ?_⟩
    · rw [storeAtCursor_spec]
      exact Memory.wf_poke h.buffer k.isLt d
    · rcases exec_avail hx ht with hset | ⟨-, -, hfull⟩
      · exact absurd (hk.trans (h.availFull hset)) (Nat.ne_of_lt k.isLt)
      · exact hfull
    · rw [storeAtCursor_spec]
      exact h.validLegal
    · rw [storeAtCursor_spec]
      exact h.invalidLegal
  | init => exact .of_cleared h.buffer rfl rfl rfl
  | isavail => exact { h with availFull := nofun }
  | resetstats => exact { h with validLegal := Nat.two_pow_pos _, invalidLegal := Nat.two_pow_pos _ }
  | _ => exact h.congr rfl rfl rfl rfl rfl rfl

theorem resumeDecode_keeps_inv {s : State} (d : DecodeProgress) (h : s.Inv) : (resumeDecode d s).Inv := by
  rcases resumeDecode_cases d s with ⟨_, _, -, -, hrefuses⟩ | ⟨_, hreads⟩ | ⟨_, hanswers⟩
  · exact hrefuses ▸ { h with invalidLegal := incCounter_legal _ _ _ }
  · exact hreads ▸ h.congr rfl rfl rfl rfl rfl rfl
  · exact hanswers ▸ { h with validLegal := incCounter_legal _ _ _ }

/-! ## The receiver and the history of events -/

@[simp] theorem frameSoFar_byte (d : Byte) (es : List Entry) :
    frameSoFar (.took (.byte d) :: es) = frameSoFar es ++ [d] := rfl

@[simp] theorem announcementDue_byte (d : Byte) (es : List Entry) :
    announcementDue (.took (.byte d) :: es) =
      if (frameSoFar es).length + 1 = 513 then true else announcementDue es := rfl

@[simp] theorem frameSoFar_armNext (es : List Entry) : frameSoFar (.armNext :: es) = frameSoFar es := rfl

@[simp] theorem announcementDue_armNext (es : List Entry) :
    announcementDue (.armNext :: es) = announcementDue es := rfl

theorem armCount_cons (e : Entry) (es : List Entry) :
    armCount (e :: es) = armCount es + if e = .armNext then 1 else 0 := by
  simp [armCount, List.countP_cons]

theorem armingCount_cons (e : Entry) (es : List Entry) :
    armingCount (e :: es) = armingCount es + if e.arms then 1 else 0 := by
  simp [armingCount, List.countP_cons]

/-- An entry that the history does not look at is neither a pulse nor an arming operation. -/
theorem counts_neutral {e : Entry} (h : e.neutral = true) (es : List Entry) :
    armCount (e :: es) = armCount es ∧ armingCount (e :: es) = armingCount es := by
  have hpulse : e ≠ .armNext := by
    rintro rfl
    cases h
  have harms : e.arms = false := by
    unfold Entry.arms
    split
    · cases h
    · cases h
    · rfl
  simp [armCount_cons, armingCount_cons, hpulse, harms]

/-- The receiver's history looks at the cursor, the flag, what the buffer reads as, and the trace. -/
theorem State.ReceiverHistory.congr {s t : State} (h : s.ReceiverHistory) (hcur : t.cur = s.cur)
    (havail : t.avail = s.avail) (hread : SameBuffer s t) (htrace : t.trace = s.trace) : t.ReceiverHistory where
  cursor := by rw [hcur, htrace, h.cursor]
  bytes i hi := by rw [htrace, hread i, h.bytes i (hcur ▸ hi)]
  flag := by rw [havail, htrace, h.flag]
  pulses := by rw [htrace, h.pulses]

/-- A neutral entry keeps the receiver's history true. -/
theorem State.ReceiverHistory.record {s : State} (h : s.ReceiverHistory) {e : Entry} (he : e.neutral = true) :
    (s.record e).ReceiverHistory := by
  obtain ⟨harm, harming⟩ := counts_neutral he s.trace
  refine ⟨?_, fun i hi => ?_, ?_, ?_⟩ <;> rw [State.record_trace]
  · rw [frameSoFar_neutral he]
    exact h.cursor
  · rw [frameSoFar_neutral he]
    exact h.bytes i hi
  · rw [announcementDue_neutral he]
    exact h.flag
  · rw [harm, harming, h.pulses]

/-- The receiver's history holds with the cursor and the flag at 0 when nothing is delivered or due. -/
theorem State.ReceiverHistory.of_rewound {s : State} (hcur : s.cur.val = 0) (havail : s.avail = false)
    (hframe : frameSoFar s.trace = []) (hdue : announcementDue s.trace = false)
    (hpulses : armCount s.trace = armingCount s.trace) : s.ReceiverHistory where
  cursor := by simp [hcur, hframe]
  bytes i hi := by omega
  flag := havail.trans hdue.symm
  pulses := hpulses

/-- A BYTE arms once and pulses once (R125). -/
theorem pulses_byte {es : List Entry} (h : armCount es = armingCount es) (d : Byte) :
    armCount (.armNext :: .took (.byte d) :: es) = armingCount (.armNext :: .took (.byte d) :: es) := by
  simp [armCount_cons, armingCount_cons, Entry.arms, h]

/-- A byte stored at the cursor is the next byte of the frame (R81, R123). -/
theorem receiverHistory_stored {s : State} (h : s.ReceiverHistory) (d : Byte) {k : Index} (hk : k.val = s.cur.val) :
    (storeAtCursor d k (s.record (.took (.byte d)))).emitArm.ReceiverHistory := by
  have hfilling : k.val < 513 := k.isLt
  have hlen : (frameSoFar s.trace).length = k.val := by
    have hcursor : s.cur.val = min (frameSoFar s.trace).length 513 := h.cursor
    omega
  have hcur : (storeAtCursor d k (s.record (.took (.byte d)))).emitArm.cur.val = k.val + 1 := by
    simp [storeAtCursor_spec]
  have htrace : (storeAtCursor d k (s.record (.took (.byte d)))).emitArm.trace =
      .armNext :: .took (.byte d) :: s.trace := by
    simp [storeAtCursor_spec]
  refine ⟨?_, fun i hi => ?_, ?_, ?_⟩ <;> rw [htrace]
  · rw [hcur, frameSoFar_armNext, frameSoFar_byte, List.length_append, hlen]
    exact (Nat.min_eq_left hfilling).symm
  · rw [frameSoFar_armNext, frameSoFar_byte, State.readByte_emitArm, storeAtCursor_readByte]
    by_cases hki : k = i
    · rw [if_pos hki, ← hki, ← hlen, List.getElem?_concat_length]
    · have hne : k.val ≠ i.val := fun e => hki (Fin.ext e)
      have hlt : i.val < k.val := by omega
      rw [if_neg hki, List.getElem?_append_left (hlen ▸ hlt)]
      exact h.bytes i (hk ▸ hlt)
  · rw [announcementDue_armNext, announcementDue_byte, hlen, ← h.flag, storeAtCursor_spec]
    by_cases hlast : k.val = 512 <;> simp [hlast]
  · exact pulses_byte h.pulses d

/-- A byte discarded in the Full state is beyond the frame (R126). -/
theorem receiverHistory_discarded {s : State} (h : s.ReceiverHistory) (d : Byte) (hfull : s.cur.val = 513) :
    (s.record (.took (.byte d))).emitArm.ReceiverHistory := by
  have hlen : 513 ≤ (frameSoFar s.trace).length := by
    have hcursor : s.cur.val = min (frameSoFar s.trace).length 513 := h.cursor
    omega
  refine ⟨?_, fun i hi => ?_, ?_, ?_⟩ <;> rw [State.emitArm_trace, State.record_trace]
  · rw [frameSoFar_armNext, frameSoFar_byte, List.length_append, Nat.min_eq_right (Nat.le_add_right_of_le hlen)]
    exact hfull
  · rw [frameSoFar_armNext, frameSoFar_byte, List.getElem?_append_left (Nat.lt_of_lt_of_le i.isLt hlen)]
    exact h.bytes i hi
  · rw [announcementDue_armNext, announcementDue_byte, if_neg (by omega)]
    exact h.flag
  · exact pulses_byte h.pulses d

theorem exec_keeps_receiverHistory {i : Instr} {s t : State} (h : s.ReceiverHistory)
    (hx : exec i (s.record (.took i)) = .next t) : t.ReceiverHistory := by
  cases exec_effect hx with
  | brk => exact .of_rewound rfl rfl rfl rfl (by simp [armCount_cons, armingCount_cons, Entry.arms, h.pulses])
  | stored d k hk => exact receiverHistory_stored h d hk
  | discarded d hfull => exact receiverHistory_discarded h d hfull
  | init v a r =>
    refine .of_rewound rfl rfl rfl rfl ?_
    simp [armCount_cons, armingCount_cons, Entry.arms, h.pulses]
  | isavail =>
    refine ⟨h.cursor, h.bytes, rfl, ?_⟩
    simp [armCount_cons, armingCount_cons, Entry.arms, h.pulses]
  | setaddr v a r =>
    have hanswer := (h.record (e := .took (.setaddr v)) rfl).record (e := .response r) rfl
    exact hanswer.congr rfl rfl (fun _ => rfl) rfl
  | decodeBegun p => exact (h.record (e := .took (.decode true)) rfl).congr rfl rfl (fun _ => rfl) rfl
  | resetstats =>
    have hanswer := (h.record (e := .took .resetstats) rfl).record (e := .response (.ok .empty)) rfl
    exact hanswer.congr rfl rfl (fun _ => rfl) rfl
  | answered i r hi => exact (h.record hi).record rfl

theorem takeReset_receiverHistory {s : State} (h : s.ReceiverHistory) :
    (takeReset (s.record .resetTaken)).ReceiverHistory :=
  .of_rewound rfl rfl rfl rfl (by simp [armCount_cons, armingCount_cons, Entry.arms, h.pulses])

theorem resumeDecode_keeps_receiverHistory {s : State} (d : DecodeProgress) (h : s.ReceiverHistory) :
    (resumeDecode d (s.record .resumed)).ReceiverHistory := by
  obtain ⟨hread, -, hcur, havail, -⟩ := resumeDecode_frame d (s.record .resumed)
  rcases resumeDecode_silent_or_ends d (s.record .resumed) with htrace | ⟨r, -, htrace⟩
  · exact (h.record rfl).congr hcur havail hread htrace
  · exact ((h.record rfl).record (e := .response r) rfl).congr hcur havail hread htrace

/-! ## The counters and the history of DECODE outcomes -/

/-- R163, the greatest value under wrap. -/
theorem incCounter_wrap_max {w x : Nat} (h : ¬ x < 2 ^ w - 1) : incCounter w .wrap x = 0 :=
  if_neg h

/-- R163, the greatest value under saturate. -/
theorem incCounter_saturate_max {w x : Nat} (h : ¬ x < 2 ^ w - 1) : incCounter w .saturate x = 2 ^ w - 1 :=
  if_neg h

/-- An increment shows one more (R163). -/
theorem incCounter_counterShows (w : Nat) (ovf : Config.CntOvf) (n : Nat) :
    incCounter w ovf (counterShows w ovf n) = counterShows w ovf (n + 1) := by
  cases ovf with
  | wrap =>
    have hlt := Nat.mod_lt n (Nat.two_pow_pos w)
    show incCounter w .wrap (n % 2 ^ w) = (n + 1) % 2 ^ w
    rw [← Nat.mod_add_mod]
    by_cases hmax : n % 2 ^ w < 2 ^ w - 1
    · rw [incCounter_lt hmax, Nat.mod_eq_of_lt (show n % 2 ^ w + 1 < 2 ^ w by omega)]
    · rw [incCounter_wrap_max hmax, show n % 2 ^ w + 1 = 2 ^ w by omega, Nat.mod_self]
  | saturate =>
    show incCounter w .saturate (min n (2 ^ w - 1)) = min (n + 1) (2 ^ w - 1)
    by_cases hmax : min n (2 ^ w - 1) < 2 ^ w - 1
    · rw [incCounter_lt hmax]
      omega
    · rw [incCounter_saturate_max hmax]
      omega

@[simp] theorem counterShows_zero (w : Nat) (ovf : Config.CntOvf) : counterShows w ovf 0 = 0 := by
  cases ovf <;> simp [counterShows]

/-- An entry that the counters' history does not look at adds no outcome and clears none. -/
theorem decodes_uncounted {e : Entry} (h : e.uncounted = true) (es : List Entry) :
    decodesOk (e :: es) = decodesOk es ∧ decodesBad (e :: es) = decodesBad es := by
  have hclears : e.clearsCounters = false := by
    unfold Entry.uncounted at h
    split at h
    · cases h
    · cases h
    · simpa using h
  constructor
  · refine (if_neg (by simp [hclears])).trans ?_
    split
    · cases h
    · rfl
  · refine (if_neg (by simp [hclears])).trans ?_
    split
    · cases h
    · rfl

/-- The counters' history looks at the counters, their parameters and the trace. -/
theorem State.CounterHistory.congr {s t : State} (h : s.CounterHistory) (hvalid : t.valid = s.valid)
    (hinvalid : t.invalid = s.invalid) (hcfg : t.cfg = s.cfg) (htrace : t.trace = s.trace) : t.CounterHistory :=
  ⟨by rw [hvalid, hcfg, htrace, h.valid], by rw [hinvalid, hcfg, htrace, h.invalid]⟩

/-- An entry that is no DECODE outcome and clears nothing keeps the counters' history true. -/
theorem State.CounterHistory.record {s : State} (h : s.CounterHistory) {e : Entry} (he : e.uncounted = true) :
    (s.record e).CounterHistory := by
  obtain ⟨hok, hbad⟩ := decodes_uncounted he s.trace
  constructor <;> rw [State.record_trace]
  · rw [hok]
    exact h.valid
  · rw [hbad]
    exact h.invalid

/-- The counters' history holds with both counters at 0 when no outcome stands since the last clearing. -/
theorem State.CounterHistory.of_cleared {s : State} (hvalid : s.valid = 0) (hinvalid : s.invalid = 0)
    (hok : decodesOk s.trace = 0) (hbad : decodesBad s.trace = 0) : s.CounterHistory :=
  ⟨by simp [hvalid, hok], by simp [hinvalid, hbad]⟩

theorem exec_keeps_counterHistory {i : Instr} {s t : State} (h : s.CounterHistory)
    (hx : exec i (s.record (.took i)) = .next t) : t.CounterHistory := by
  cases exec_effect hx with
  | brk => exact (h.record (e := .took .brk) rfl).congr rfl rfl rfl rfl
  | stored d k =>
    rw [storeAtCursor_spec]
    exact ((h.record (e := .took (.byte d)) rfl).record (e := .armNext) rfl).congr rfl rfl rfl rfl
  | discarded d => exact (h.record rfl).record rfl
  | init v a r hr =>
    obtain ⟨hok, hbad⟩ := decodes_uncounted hr (.armNext :: .took (.init v) :: s.trace)
    exact .of_cleared rfl rfl hok hbad
  | setaddr v a r hr => exact ((h.record (e := .took (.setaddr v)) rfl).record hr).congr rfl rfl rfl rfl
  | isavail =>
    have hanswer := (h.record (e := .took .isavail) rfl).record (e := .response (.ok (.flag s.avail))) rfl
    exact hanswer.congr rfl rfl rfl rfl
  | decodeBegun p => exact (h.record (e := .took (.decode true)) rfl).congr rfl rfl rfl rfl
  | resetstats => exact .of_cleared rfl rfl rfl rfl
  | answered i r _ hi hr => exact (h.record hi).record hr

/-- R25, R26: the segment that ends a DECODE counts its outcome, and the others count nothing. -/
theorem resumeDecode_keeps_counterHistory {s : State} (d : DecodeProgress) (h : s.CounterHistory) :
    (resumeDecode d (s.record .resumed)).CounterHistory := by
  rcases resumeDecode_cases d (s.record .resumed) with ⟨_, _, -, -, hrefuses⟩ | ⟨_, hreads⟩ | ⟨c, hanswers⟩
  · refine hrefuses ▸ ⟨h.valid, ?_⟩
    show incCounter s.cfg.cntW s.cfg.cntOvf s.invalid = counterShows s.cfg.cntW s.cfg.cntOvf (decodesBad s.trace + 1)
    rw [h.invalid, incCounter_counterShows]
  · exact hreads ▸ (h.record (e := .resumed) rfl).congr rfl rfl rfl rfl
  · refine hanswers ▸ ⟨?_, h.invalid⟩
    show incCounter s.cfg.cntW s.cfg.cntOvf s.valid = counterShows s.cfg.cntW s.cfg.cntOvf (decodesOk s.trace + 1)
    rw [h.valid, incCounter_counterShows]

/-! ## Runs from a Full receiver -/

/-- R126, R128: a step of a Full receiver that does not rewind it keeps the cursor and the frame, and does not set the
flag. -/
theorem step_of_full {s t : State} (hfull : s.cur.val = 513) (hrewinds : rewindsNext s = false)
    (h : step s = .next t) : t.cur.val = 513 ∧ SameBuffer s t ∧ (t.avail = true → s.avail = true) := by
  refine ⟨?_, fun j => ?_, fun ht => ?_⟩
  · rcases step_cur h with hsame | hrewinds' | hfilling
    · rw [hsame, hfull]
    · exact absurd hrewinds' (by simp [hrewinds])
    · omega
  · rcases step_readByte h j with hsame | ⟨-, hj⟩ | ⟨ts, hts⟩
    · exact hsame
    · exact absurd (hj.trans hfull) (Nat.ne_of_lt j.isLt)
    · simp [rewindsNext, nextAction, hts] at hrewinds
  · exact (step_avail h ht).resolve_right fun ⟨hlast, _⟩ => by omega

theorem neverRewinds_step {n : Nat} {s t : State} (h : neverRewinds (n + 1) s = true) (hs : step s = .next t) :
    rewindsNext s = false ∧ neverRewinds n t = true := by
  rwa [neverRewinds, hs, Bool.and_eq_true, Bool.not_eq_true'] at h

/-! ## The statements -/

/-- Settles O37: each action keeps the invariant. -/
theorem stepKeepsInvariant : Obligations.StepKeepsInvariant := by
  intro s t h hs
  refine step_keeps (P := State.Inv) ?agents ?reset ?run ?reserved ?resume h hs
  case agents => exact fun s es cs ts h => h.congr rfl rfl rfl rfl rfl rfl
  case reset => exact fun s _ => .of_cleared Memory.wf_nil rfl rfl rfl
  case run => exact fun i s t h => exec_keeps_inv (h.congr rfl rfl rfl rfl rfl rfl)
  case reserved => exact fun s code h => h.congr rfl rfl rfl rfl rfl rfl
  case resume => exact fun s d h => resumeDecode_keeps_inv d (h.congr rfl rfl rfl rfl rfl rfl)

/-- Settles O39: each action keeps the receiver what the trace says. -/
theorem stepKeepsReceiverHistory : Obligations.StepKeepsReceiverHistory := by
  intro s t h hs
  refine step_keeps (P := State.ReceiverHistory) ?agents ?reset ?run ?reserved ?resume h hs
  case agents => exact fun s es cs ts h => ⟨h.cursor, h.bytes, h.flag, h.pulses⟩
  case reset => exact fun s => takeReset_receiverHistory
  case run => exact fun i s t => exec_keeps_receiverHistory
  case reserved => exact fun s code h => (h.record rfl).record rfl
  case resume => exact fun s => resumeDecode_keeps_receiverHistory

/-- Settles O40: each action keeps the counters what the trace says. -/
theorem stepKeepsCounterHistory : Obligations.StepKeepsCounterHistory := by
  intro s t h hs
  refine step_keeps (P := State.CounterHistory) ?agents ?reset ?run ?reserved ?resume h hs
  case agents => exact fun s es cs ts h => ⟨h.valid, h.invalid⟩
  case reset => exact fun s _ => .of_cleared rfl rfl rfl rfl
  case run => exact fun i s t => exec_keeps_counterHistory
  case reserved => exact fun s code h => (h.record rfl).record rfl
  case resume => exact fun s => resumeDecode_keeps_counterHistory

/-- Settles O42: an index that reads differently was stored to, or the step was a reset. -/
theorem onlyByteChangesBuffer : Obligations.OnlyByteChangesBuffer := by
  intro s t i h hdiffers
  exact ((step_readByte h i).resolve_left hdiffers).imp_left And.left

/-- Settles O43: a flag that was down can only have been raised. -/
theorem flagRisesOnlyAtLastByte : Obligations.FlagRisesOnlyAtLastByte := by
  intro s t h hdown hup
  exact (step_avail h hup).resolve_left (by simp [hdown])

/-- Settles O44: BREAK and BYTE write the receiver alone. -/
theorem eventsLeaveConsumerRegisters : Obligations.EventsLeaveConsumerRegisters := by
  intro i s t hport h
  obtain ⟨m, c, b, out, hx⟩ := exec_event_local hport s
  cases h.symm.trans (hx s rfl rfl rfl)
  exact ⟨rfl, ⟨rfl, rfl⟩, rfl, rfl, rfl, rfl, rfl, rfl⟩

/-- Settles O45: what BYTE does to the buffer and the flag, and BREAK and BYTE to the cursor, no consumer operation
does. -/
theorem consumerLeavesReceiverState : Obligations.ConsumerLeavesReceiverState := by
  intro i s t hport h
  refine ⟨fun j => ?_, fun ht => ?_, fun hinit => ?_⟩
  · refine (exec_readByte h j).resolve_right ?_
    rintro ⟨d, rfl, -⟩
    cases hport
  · refine (exec_avail h ht).resolve_right ?_
    rintro ⟨⟨d, rfl⟩, -⟩
    cases hport
  · rcases exec_cur h with hsame | rfl | ⟨v, hi⟩ | ⟨⟨d, rfl⟩, -⟩
    · exact hsame
    · cases hport
    · exact absurd hi (hinit v)
    · cases hport

/-- Settles O46: no action but a SETADDR, an INIT or a reset writes the address. -/
theorem addressChangesOnlyBySetaddrOrInit : Obligations.AddressChangesOnlyBySetaddrOrInit := by
  intro s t h hdiffers
  cases stepsTo_of_step h with
  | reset ts ht => exact .inr (.inr ⟨ts, ht⟩)
  | run i es cs ts _ ha hx =>
    rcases exec_addr hx with hsame | ⟨v, rfl⟩ | ⟨v, rfl⟩
    · exact absurd hsame hdiffers
    · exact .inl ⟨v, _, ha⟩
    · exact .inr (.inl ⟨v, _, ha⟩)
  | resume d ts => exact absurd (by simp [resumeDecode_frame]) hdiffers
  | _ => exact absurd rfl hdiffers

/-- Settles O47: the two operations read and write different fields. -/
theorem eventsCommuteWithConsumerRegisters : Obligations.EventsCommuteWithConsumerRegisters := by
  intro e c s he hc
  obtain ⟨m, cur, b, out, hevent⟩ := exec_event_local he s
  obtain ⟨fa, fn, fr, hregister⟩ := exec_register_local hc
  exact ⟨_, _, _, _, fr s.addr s.valid s.invalid, hevent s rfl rfl rfl, hregister _, hregister s,
    hevent _ rfl rfl rfl, rfl, rfl, rfl⟩

/-- Settles O49, by induction on the length of the run. -/
theorem fullReceiverHoldsFrame : Obligations.FullReceiverHoldsFrame := by
  intro n
  induction n with
  | zero =>
    rintro s _ hfull - rfl
    exact ⟨hfull, fun _ => rfl, id⟩
  | succ n ih =>
    rintro s t hfull hnever ⟨u, hs, hrun⟩
    obtain ⟨hfirst, hrest⟩ := neverRewinds_step hnever hs
    obtain ⟨hcur, hbuf, havail⟩ := step_of_full hfull hfirst hs
    obtain ⟨hcur', hbuf', havail'⟩ := ih u t hcur hrest hrun
    exact ⟨hcur', fun i => (hbuf' i).trans (hbuf i), havail ∘ havail'⟩

/-- Settles O1: the fields of the reset state; an index that nothing has stored to reads as its free value. -/
theorem resetGivesRegisterValues : Obligations.ResetGivesRegisterValues :=
  ⟨rfl, rfl, rfl, rfl, rfl, rfl, fun _ => rfl⟩

/-- Settles O21: the address is 1 to 506 and the field 0 to 4. -/
theorem windowStaysInsideBuffer : Obligations.WindowStaysInsideBuffer := by
  intro a k
  obtain ⟨hmin, hmax⟩ := a.range
  have hk : k.val < 5 := k.isLt
  rw [windowIndex_val]
  omega

/-- Settles O36: nothing is stored, announced or counted. -/
theorem resetSatisfiesInvariant : Obligations.ResetSatisfiesInvariant :=
  .of_cleared Memory.wf_nil rfl rfl rfl

/-- Settles O38: the trace is empty. -/
theorem resetAgreesWithHistory : Obligations.ResetAgreesWithHistory :=
  ⟨.of_rewound rfl rfl rfl rfl rfl, .of_cleared rfl rfl rfl rfl⟩

end Sys2Proof.Machine

/-! PROOFS. The buffer over time (spec/20_memory.md): what is announced is in the buffer (R61), what a poll and a
DECODE in time answer, and what a late reader can see (R62). -/

namespace Sys2Proof.Machine

/-! ## Runs -/

/-- What every step keeps, a run of any length keeps. -/
theorem reaches_keeps {P : State → Prop} (keeps : ∀ s t, P s → step s = .next t → P t) {n : Nat} {s t : State}
    (h : P s) (hrun : Reaches n s t) : P t := by
  induction n generalizing s with
  | zero => exact Eq.subst hrun h
  | succ n ih =>
    obtain ⟨u, hs, hrest⟩ := hrun
    exact ih (keeps s u h hs) hrest

theorem reaches_one {s t : State} (h : step s = .next t) : Reaches 1 s t :=
  ⟨t, h, rfl⟩

/-- Every step uses up one turn. -/
theorem step_turns {s t : State} (h : step s = .next t) : t.turns = s.turns.tail := by
  rcases nextAction_cases s with ⟨ts, ha⟩ | ⟨ts, ht, ha⟩ | ⟨ts, w, es, ht, -, ha⟩ | ⟨ts, d, ht, -, ha⟩ |
    ⟨ts, w, cs, i, ht, -, -, -, ha⟩ | ⟨ts, w, cs, code, ht, -, -, -, ha⟩ <;> simp only [step, ha] at h
  · cases h
    rw [nextAction_idle ha]
  · cases h
    simp [ht]
  · obtain ⟨-, hturns, -⟩ := exec_extends h
    simp [hturns, ht]
  · cases h
    simp [resumeDecode_frame, ht]
  · obtain ⟨-, hturns, -⟩ := exec_extends h
    simp [hturns, ht]
  · cases h
    simp [ht]

/-- Every step only adds to the trace. -/
theorem step_trace_extends {s t : State} (h : step s = .next t) : ∃ new, t.trace = new ++ s.trace := by
  cases stepsTo_of_step h with
  | idle ts => exact ⟨[], rfl⟩
  | reset ts => exact ⟨[.resetTaken], rfl⟩
  | run i es cs ts _ _ hx =>
    obtain ⟨⟨new, hnew⟩, -⟩ := exec_extends hx
    exact ⟨new ++ [.took i], by simp [hnew, State.withAgents]⟩
  | reserved code cs ts => exact ⟨[_, _], rfl⟩
  | resume d ts =>
    rcases resumeDecode_silent_or_ends d ((s.withAgents s.events s.commands ts).record .resumed) with
      htrace | ⟨r, -, htrace⟩
    · exact ⟨[.resumed], htrace⟩
    · exact ⟨[.response r, .resumed], htrace⟩

/-- A step that stores to an index leaves the cursor just past it (R123). -/
theorem step_cur_of_storesNext {s t : State} {i : Index} (h : step s = .next t) (hi : storesNext s = some i) :
    t.cur = nextCursor i := by
  unfold storesNext at hi
  split at hi
  case h_1 d u ha =>
    rw [step_of_run ha] at h
    rw [fillIndex_eq_some] at hi
    cases exec_effect h with
    | stored _ k hk =>
      cases Fin.ext (hk.trans hi.symm)
      simp [storeAtCursor_spec]
    | discarded _ hfull => exact absurd (hi.trans hfull) (Nat.ne_of_lt i.isLt)
    | answered _ _ hneutral => cases hneutral
  case h_2 => cases hi

/-! ## Announced bytes, and the bytes read later -/

/-- While the receiver is Full the frame so far has at least 513 bytes, and the first 513 are the buffer (R61). -/
theorem State.ReceiverHistory.frame_of_full {s : State} (h : s.ReceiverHistory) (hfull : s.cur.val = 513) :
    513 ≤ (frameSoFar s.trace).length ∧ ∀ i : Index, (frameSoFar s.trace)[i.val]? = some (s.readByte i) := by
  have hcursor : s.cur.val = min (frameSoFar s.trace).length 513 := h.cursor
  exact ⟨by omega, fun i => h.bytes i (hfull ▸ i.isLt)⟩

/-- Index `i` reads in `t` as the byte that was delivered for it in the frame as it stood when the trace was `base`, or
at some point after (R62). -/
def ReadsFrameSince (base : List Entry) (t : State) (i : Index) : Prop :=
  ∃ later during, t.trace = later ++ during ++ base ∧ (frameSoFar (during ++ base))[i.val]? = some (t.readByte i)

/-- What the receiver holds below its cursor is of the frame as it stands now. -/
theorem ReadsFrameSince.of_below_cursor {base during : List Entry} {t : State} {i : Index} (h : t.ReceiverHistory)
    (htrace : t.trace = during ++ base) (hi : i.val < t.cur.val) : ReadsFrameSince base t i :=
  ⟨[], during, htrace, htrace ▸ h.bytes i hi⟩

/-- A step that is no reset keeps an index reading as it did, or stores to it the newest byte of the frame. -/
theorem ReadsFrameSince.of_step {base : List Entry} {s t : State} {i : Index} (h : ReadsFrameSince base s i)
    (hhistory : s.ReceiverHistory) (hrst : .rst ∉ s.turns) (hs : step s = .next t) : ReadsFrameSince base t i := by
  obtain ⟨later, during, htrace, hbyte⟩ := h
  obtain ⟨new, hnew⟩ := step_trace_extends hs
  rcases step_readByte hs i with hsame | ⟨hstores, -⟩ | ⟨ts, hts⟩
  · exact ⟨new ++ later, during, by simp [hnew, htrace], hsame ▸ hbyte⟩
  · have hcur : t.cur.val = i.val + 1 := by rw [step_cur_of_storesNext hs hstores, nextCursor_val]
    exact .of_below_cursor (during := new ++ later ++ during) (stepKeepsReceiverHistory s t hhistory hs)
      (by simp [hnew, htrace]) (by omega)
  · exact absurd (hts ▸ List.mem_cons_self) hrst

/-! ## What the transport leaves to the consumer -/

/-- The six indices that a DECODE at base address `a` reads are the same (R57). -/
def SameWindow (a : BaseAddr) (s t : State) : Prop :=
  ∀ i : Index, inWindow a i = true → t.readByte i = s.readByte i

theorem SameWindow.trans {a : BaseAddr} {s t u : State} (h : SameWindow a s t) (h' : SameWindow a t u) :
    SameWindow a s u :=
  fun i hi => (h' i hi).trans (h i hi)

theorem SameWindow.windowOf_eq {a : BaseAddr} {s t : State} (h : SameWindow a s t) : windowOf a t = windowOf a s := by
  simp only [windowOf, h _ (inWindow_windowIndex a _)]

/-- What only the consumer's steps change is the same, but for the progress of a DECODE: the address, the counters,
their parameters, and the commands to come (R27). -/
structure SameConsumer (s t : State) : Prop where
  addr : t.addr = s.addr
  counters : SameCounters s t
  cfg : t.cfg = s.cfg
  commands : t.commands = s.commands

theorem SameConsumer.trans {s t u : State} (h : SameConsumer s t) (h' : SameConsumer t u) : SameConsumer s u :=
  ⟨h'.addr.trans h.addr, ⟨h'.counters.1.trans h.counters.1, h'.counters.2.trans h.counters.2⟩,
    h'.cfg.trans h.cfg, h'.commands.trans h.commands⟩

theorem sameConsumer_setProgress (s : State) (p : Option DecodeProgress) : SameConsumer s (s.setProgress p) :=
  ⟨rfl, ⟨rfl, rfl⟩, rfl, rfl⟩

/-- A step of the transport, whether or not it has an event to deliver, changes nothing of the consumer's. -/
theorem step_transport {s : State} {ts : List Turn} (ht : s.turns = .transport :: ts) :
    ∃ t, step s = .next t ∧ t.turns = ts ∧ t.progress = s.progress ∧ SameConsumer s t := by
  cases he : s.events with
  | nil => exact ⟨{ s with turns := ts }, by simp [step, nextAction, ht, transportMove, he], rfl, rfl,
      ⟨rfl, ⟨rfl, rfl⟩, rfl, rfl⟩⟩
  | cons w es =>
    obtain ⟨m, c, b, out, hx⟩ := exec_event_local (decodeEvent_port w)
      ({ s with turns := ts, events := es }.record (.took (decodeEvent w)))
    exact ⟨_, (step_event ht he).trans (hx _ rfl rfl rfl), rfl, rfl, ⟨rfl, ⟨rfl, rfl⟩, rfl, rfl⟩⟩

theorem quietFor_succ {a : BaseAddr} {n : Nat} {s t : State} (h : quietFor a (n + 1) s = true)
    (hs : step s = .next t) : quietNext a s = true ∧ quietFor a n t = true := by
  rwa [quietFor, hs, Bool.and_eq_true] at h

/-- A step that is no reset and stores to no index of the window leaves the window. -/
theorem sameWindow_of_quietNext {a : BaseAddr} {s t : State} (hquiet : quietNext a s = true)
    (hrst : ∀ ts, s.turns ≠ .rst :: ts) (hs : step s = .next t) : SameWindow a s t := by
  intro i hi
  rcases step_readByte hs i with hsame | ⟨hstores, -⟩ | ⟨ts, hts⟩
  · exact hsame
  · simp [quietNext, hstores, hi] at hquiet
  · exact absurd hts (hrst ts)

/-- Any number of transport turns changes nothing of the consumer's, and leaves every window that they store to no
index of. -/
theorem transport_run {n : Nat} {s : State} {ts : List Turn} (ht : s.turns = List.replicate n .transport ++ ts) :
    ∃ t, Reaches n s t ∧ t.turns = ts ∧ t.progress = s.progress ∧ SameConsumer s t ∧
      ∀ a, quietFor a n s = true → SameWindow a s t := by
  induction n generalizing s with
  | zero => exact ⟨s, rfl, ht, rfl, ⟨rfl, ⟨rfl, rfl⟩, rfl, rfl⟩, fun _ _ _ _ => rfl⟩
  | succ n ih =>
    obtain ⟨u, hs, hturns, hprogress, hconsumer⟩ := step_transport ht
    obtain ⟨t, hrun, hturns', hprogress', hconsumer', hwindow⟩ := ih hturns
    refine ⟨t, ⟨u, hs, hrun⟩, hturns', hprogress'.trans hprogress, hconsumer.trans hconsumer', fun a hquiet => ?_⟩
    obtain ⟨hfirst, hrest⟩ := quietFor_succ hquiet hs
    exact (sameWindow_of_quietNext hfirst (by simp [ht, List.replicate_succ]) hs).trans (hwindow a hrest)

/-! ## A DECODE in progress -/

/-- The address that a DECODE in progress sampled. -/
def DecodeProgress.base : DecodeProgress → BaseAddr
  | .startRead a _ | .redRead a _ | .greenRead a _ _ | .blueRead a _ _ _ | .dimmerRead a _ _ _ _ => a

/-- How many segments a DECODE in progress has still to run, if its start code is accepted (R141). -/
def DecodeProgress.segmentsLeft : DecodeProgress → Nat
  | .startRead _ _ => 5
  | .redRead _ _ => 4
  | .greenRead _ _ _ => 3
  | .blueRead _ _ _ _ => 2
  | .dimmerRead _ _ _ _ _ => 1

/-- The start-code test of a DECODE in progress will succeed, or has. -/
def DecodeProgress.accepted : DecodeProgress → Prop
  | .startRead _ start => start = Config.startCode
  | _ => True

/-- The channels read so far, and the others as the buffer of `s` holds them. -/
def DecodeProgress.channels (s : State) : DecodeProgress → Channels
  | .startRead a _ => windowOf a s
  | .redRead a r => { windowOf a s with red := r }
  | .greenRead a r g => { windowOf a s with red := r, green := g }
  | .blueRead a r g b => { windowOf a s with red := r, green := g, blue := b }
  | .dimmerRead a r g b dim => { windowOf a s with red := r, green := g, blue := b, dimmer := dim }

theorem DecodeProgress.channels_eq {d : DecodeProgress} {s t : State} (h : SameWindow d.base s t) :
    d.channels t = d.channels s := by
  have hwindow := h.windowOf_eq
  cases d <;> simp only [base] at hwindow <;> simp only [channels, hwindow]

/-- A segment that is not the last reads the next channel and goes on: the channels stay what they were to be. -/
theorem resumeDecode_reads_on {d : DecodeProgress} {k : Nat} (hleft : d.segmentsLeft = k + 2) (hok : d.accepted)
    (s : State) :
    ∃ d', resumeDecode d s = s.setProgress (some d') ∧ d'.segmentsLeft = k + 1 ∧ d'.accepted ∧ d'.base = d.base ∧
      d'.channels s = d.channels s := by
  cases d with
  | startRead a start => exact ⟨_, if_pos hok, Nat.succ.inj hleft, trivial, rfl, rfl⟩
  | dimmerRead => exact absurd (Nat.succ.inj hleft) (Nat.succ_ne_zero k).symm
  | _ => exact ⟨_, rfl, Nat.succ.inj hleft, trivial, rfl, rfl⟩

/-- The last segment answers the channels and counts a success. -/
theorem resumeDecode_answers {d : DecodeProgress} (hleft : d.segmentsLeft = 1) (s : State) :
    resumeDecode d s = returnOk (.decoded (d.channels s)) (s.setProgress none).countValid := by
  cases d with
  | dimmerRead => rfl
  | _ => cases hleft

/-- One boundary of a DECODE in progress and its next segment: after the boundary's transport turns the segment runs on
a state with the same window. -/
theorem segment_run {s : State} {d : DecodeProgress} {n : Nat} {ts : List Turn} (hp : s.progress = some d)
    (ht : s.turns = List.replicate n .transport ++ .consumer :: ts) (hquiet : quietFor d.base n s = true) :
    ∃ v, Reaches (n + 1) s (resumeDecode d v) ∧ v.turns = ts ∧ SameConsumer s v ∧ SameWindow d.base s v := by
  obtain ⟨u, hrun, hturns, hprogress, hconsumer, hwindow⟩ := transport_run ht
  exact ⟨_, reaches_add hrun (reaches_one (step_resume hturns (hprogress.trans hp))), rfl,
    hconsumer.trans ⟨rfl, ⟨rfl, rfl⟩, rfl, rfl⟩, hwindow _ hquiet⟩

theorem consumerTurns_cons (n : Nat) (ns : List Nat) (ts : List Turn) :
    consumerTurns (n :: ns) ts = .consumer :: (List.replicate n .transport ++ consumerTurns ns ts) := rfl

/-- A DECODE in progress that is not disturbed at the boundaries it has left ends with the channels it was to answer
(R145), by induction on those boundaries. -/
theorem resume_run (ns : List Nat) {n : Nat} {s : State} {d : DecodeProgress} {ts : List Turn}
    (hp : s.progress = some d) (hleft : d.segmentsLeft = ns.length + 1) (hok : d.accepted)
    (ht : s.turns = List.replicate n .transport ++ consumerTurns ns ts)
    (hquiet : quietFor d.base (n + 1 + (ns.sum + ns.length)) s = true) :
    ∃ v, Reaches (n + 1 + (ns.sum + ns.length)) s
        (returnOk (.decoded (d.channels s)) (v.setProgress none).countValid) ∧
      v.turns = ts ∧ SameConsumer s v := by
  induction ns generalizing n s d with
  | nil =>
    obtain ⟨v, hrun, hturns, hconsumer, hwindow⟩ := segment_run hp ht (quietFor_upto (n := 1) hquiet)
    rw [resumeDecode_answers hleft, DecodeProgress.channels_eq hwindow] at hrun
    exact ⟨v, hrun, hturns, hconsumer⟩
  | cons m ns ih =>
    rw [consumerTurns_cons] at ht
    obtain ⟨v, hrun, hturns, hconsumer, hwindow⟩ := segment_run hp ht (quietFor_upto (quietFor_upto hquiet))
    obtain ⟨d', hreads, hleft', hok', hbase, hchannels⟩ := resumeDecode_reads_on hleft hok v
    rw [hreads] at hrun
    have hcount : (m :: ns).sum + (m :: ns).length = m + 1 + (ns.sum + ns.length) := by
      rw [List.sum_cons, List.length_cons]
      omega
    rw [hcount] at hquiet ⊢
    obtain ⟨x, hrun', hturns', hconsumer'⟩ :=
      ih (s := v.setProgress (some d')) rfl hleft' hok' hturns (hbase ▸ quietFor_after hquiet hrun)
    have hanswer : d'.channels (v.setProgress (some d')) = d.channels s :=
      (DecodeProgress.channels_eq (fun _ _ => rfl)).trans (hchannels.trans (DecodeProgress.channels_eq hwindow))
    rw [hanswer] at hrun'
    exact ⟨x, reaches_add hrun hrun', hturns',
      (hconsumer.trans (sameConsumer_setProgress v _)).trans hconsumer'⟩

/-- The first segment of a DECODE samples the address and reads the start code (R141). -/
theorem step_decode {s : State} {w : CommandWord} {cs : List CommandWord} {ts : List Turn} (hp : s.progress = none)
    (hc : s.commands = w :: cs) (hd : decodeCommand w = .op (.decode true)) (ht : s.turns = .consumer :: ts) :
    ∃ t, step s = .next t ∧ t.progress = some (.startRead s.addr (s.readByte startIndex)) ∧ t.turns = ts ∧
      SameConsumer { s with commands := cs } t ∧ SameBuffer s t :=
  ⟨_, step_command ht hp hc hd, rfl, rfl, ⟨rfl, ⟨rfl, rfl⟩, rfl, rfl⟩, fun _ => rfl⟩

/-- The whole of an undisturbed DECODE of a frame with start code 0: it answers the window as its first step found
it and counts one success (R145). -/
theorem quiet_decode_run {s : State} {w : CommandWord} {cs : List CommandWord} {ns : List Nat} {ts : List Turn}
    (hp : s.progress = none) (hc : s.commands = w :: cs) (hd : decodeCommand w = .op (.decode true))
    (hlen : ns.length = 5) (ht : s.turns = consumerTurns ns ts) (hquiet : quietFor s.addr (ns.sum + 6) s = true)
    (hstart : s.readByte startIndex = 0#8) :
    ∃ v, Reaches (ns.sum + 6) s (returnOk (.decoded (windowOf s.addr s)) (v.setProgress none).countValid) ∧
      v.turns = ts ∧ SameConsumer { s with commands := cs } v := by
  obtain ⟨n, ms, rfl⟩ := List.exists_cons_of_length_eq_add_one hlen
  have hfour : ms.length = 4 := Nat.succ.inj hlen
  have hcount : (n :: ms).sum + 6 = 1 + (n + 1 + (ms.sum + ms.length)) := by
    rw [List.sum_cons, hfour]
    omega
  rw [hcount] at hquiet ⊢
  obtain ⟨u, hs, hprogress, hturns, hconsumer, hbuffer⟩ := step_decode hp hc hd ht
  obtain ⟨v, hrun, hturns', hconsumer'⟩ := resume_run ms hprogress (congrArg (· + 1) hfour.symm) hstart hturns
    (quietFor_after hquiet (reaches_one hs))
  have hanswer : windowOf s.addr u = windowOf s.addr s := SameWindow.windowOf_eq fun i _ => hbuffer i
  exact ⟨v, hanswer ▸ reaches_add (reaches_one hs) hrun, hturns', hconsumer.trans hconsumer'⟩

/-- ISAVAIL clears the flag and answers it as it was, in one step (R127). -/
theorem exec_isavail (s : State) : exec .isavail s = .next (s.clearAvail.respond (.ok (.flag s.avail))) := rfl

/-- ISAVAIL answers the flag, and leaves the consumer its next command and every byte of the buffer (R127). -/
theorem step_isavail {s : State} {v : CommandWord} {cs : List CommandWord} {ts : List Turn} (hp : s.progress = none)
    (hc : s.commands = v :: cs) (hd : decodeCommand v = .op .isavail) (ht : s.turns = .consumer :: ts) :
    ∃ u, step s = .next u ∧ u.trace.head? = some (.response (.ok (.flag s.avail))) ∧ u.progress = none ∧
      u.turns = ts ∧ SameConsumer { s with commands := cs } u ∧ SameBuffer s u :=
  ⟨_, (step_command ht hp hc hd).trans (exec_isavail _), rfl, hp, rfl, ⟨rfl, ⟨rfl, rfl⟩, rfl, rfl⟩, fun _ => rfl⟩

/-! ## The statements -/

/-- Settles O41: the flag says that the receiver is Full. -/
theorem announcedFrameIsWhole : Obligations.AnnouncedFrameIsWhole :=
  fun _ hinv hhistory havail => hhistory.frame_of_full (hinv.availFull havail)

/-- Settles O51: the announced frame is in the buffer, and every step keeps each index reading as a byte of its frame
or a later one. -/
theorem readsAnnouncedFrameOrNewer : Obligations.ReadsAnnouncedFrameOrNewer := by
  intro n s t hinv hhistory havail hrst hrun i
  obtain ⟨-, hbytes⟩ := announcedFrameIsWhole s hinv hhistory havail
  have hkept : t.ReceiverHistory ∧ .rst ∉ t.turns ∧ ReadsFrameSince s.trace t i := by
    refine reaches_keeps (P := fun u => u.ReceiverHistory ∧ .rst ∉ u.turns ∧ ReadsFrameSince s.trace u i) ?_
      ⟨hhistory, hrst, [], [], rfl, hbytes i⟩ hrun
    rintro u v ⟨hhistory, hrst, hreads⟩ hs
    exact ⟨stepKeepsReceiverHistory u v hhistory hs, fun hv => hrst (List.mem_of_mem_tail (step_turns hs ▸ hv)),
      hreads.of_step hhistory hrst hs⟩
  obtain ⟨-, -, hreads⟩ := hkept
  exact hreads

/-- Settles O50: ISAVAIL leaves the announced frame in the buffer, so do the transport turns after it, and then the
DECODE answers its window. -/
theorem pollInTimeReturnsAnnouncedFrame : Obligations.PollInTimeReturnsAnnouncedFrame := by
  intro s v w cs ns ts hinv hhistory havail hp hc hpoll hdecode hlen ht hquiet hstart
  obtain ⟨-, hbytes⟩ := announcedFrameIsWhole s hinv hhistory havail
  obtain ⟨n, ms, rfl⟩ := List.exists_cons_of_length_eq_add_one hlen
  have hcount : (n :: ms).sum + 7 = 1 + (n + (ms.sum + 6)) := by
    rw [List.sum_cons]
    omega
  obtain ⟨u, hs, hanswer, hprogress, hturns, hconsumer, hbuffer⟩ := step_isavail hp hc hpoll ht
  have hquiet_u : quietFor s.addr (n + (ms.sum + 6)) u = true :=
    quietFor_after (hcount ▸ hquiet) (reaches_one hs)
  obtain ⟨x, hwait, hturns', hprogress', hconsumer', hkept⟩ := transport_run hturns
  have hwindow : SameWindow s.addr s x :=
    SameWindow.trans (fun i _ => hbuffer i) (hkept s.addr (quietFor_upto hquiet_u))
  obtain ⟨haddr, -, -, hcommands⟩ := hconsumer.trans hconsumer'
  have hstart_x : x.readByte startIndex = 0#8 :=
    (hwindow startIndex rfl).trans (Option.some.inj ((hbytes startIndex).symm.trans hstart))
  obtain ⟨y, hrun, -⟩ := quiet_decode_run (hprogress'.trans hprogress) hcommands hdecode
    (Nat.succ.inj hlen) hturns' (haddr ▸ quietFor_after hquiet_u hwait) hstart_x
  rw [haddr, hwindow.windowOf_eq] at hrun
  have hsum : (n :: ms).sum + 6 = n + (ms.sum + 6) := by rw [List.sum_cons, Nat.add_assoc]
  exact ⟨u, _, windowOf s.addr s, hs, havail ▸ hanswer, hsum ▸ reaches_add hwait hrun, rfl,
    hbytes (windowIndex s.addr 0), hbytes (windowIndex s.addr 1), hbytes (windowIndex s.addr 2),
    hbytes (windowIndex s.addr 3), hbytes (windowIndex s.addr 4)⟩

/-- Settles O12: the first ISAVAIL leaves the flag 0. -/
theorem secondIsavailAnswersZero : Obligations.SecondIsavailAnswersZero :=
  fun s => ⟨_, _, exec_isavail s, exec_isavail _, rfl⟩

end Sys2Proof.Machine

/-! PROOFS. The encoding (spec/30_encoding.md): words and the operations they are read as (R83 to R93), the response
word (R88, R89), and the rows of operations behind the shorthand (R81, R96). -/

namespace Sys2Proof.Machine

/-! ## Reading a word: one equation per operation code -/

section
variable {w : CommandWord}

theorem decodeCommand_init (h : opField w = 0#4) : decodeCommand w = .op (.init (addrField w)) := by
  simp [decodeCommand, h]

theorem decodeCommand_setaddr (h : opField w = 1#4) : decodeCommand w = .op (.setaddr (addrField w)) := by
  simp [decodeCommand, h]

theorem decodeCommand_getaddr (h : opField w = 2#4) : decodeCommand w = .op .getaddr := by
  simp [decodeCommand, h]

theorem decodeCommand_isavail (h : opField w = 3#4) : decodeCommand w = .op .isavail := by
  simp [decodeCommand, h]

theorem decodeCommand_decode (h : opField w = 4#4) : decodeCommand w = .op (.decode (presentField w)) := by
  simp [decodeCommand, h]

theorem decodeCommand_applydimmer (h : opField w = 5#4) :
    decodeCommand w = .op (.applydimmer (presentField w) (unpackChannels (argField w))) := by
  simp [decodeCommand, h]

theorem decodeCommand_getstats (h : opField w = 6#4) : decodeCommand w = .op .getstats := by
  simp [decodeCommand, h]

theorem decodeCommand_resetstats (h : opField w = 7#4) : decodeCommand w = .op .resetstats := by
  simp [decodeCommand, h]

/-- Codes 8 to 15 are reserved (R92). -/
theorem decodeCommand_reserved (h : 8 ≤ (opField w).toNat) : decodeCommand w = .reserved (opField w) := by
  unfold decodeCommand
  split
  case h_9 => rfl
  all_goals omega

end

/-- A code is one of the eight operations' or is reserved (R85). -/
theorem opCode_cases (c : OpCode) :
    c = 0#4 ∨ c = 1#4 ∨ c = 2#4 ∨ c = 3#4 ∨ c = 4#4 ∨ c = 5#4 ∨ c = 6#4 ∨ c = 7#4 ∨ 8 ≤ c.toNat := by
  revert c
  decide

/-- A code below 8 is an operation's (R85, R90). -/
theorem decodeCommand_op {w : CommandWord} (hcode : (opField w).toNat < 8) : ∃ i, decodeCommand w = .op i := by
  rcases opCode_cases (opField w) with h | h | h | h | h | h | h | h | h
  · exact ⟨_, decodeCommand_init h⟩
  · exact ⟨_, decodeCommand_setaddr h⟩
  · exact ⟨_, decodeCommand_getaddr h⟩
  · exact ⟨_, decodeCommand_isavail h⟩
  · exact ⟨_, decodeCommand_decode h⟩
  · exact ⟨_, decodeCommand_applydimmer h⟩
  · exact ⟨_, decodeCommand_getstats h⟩
  · exact ⟨_, decodeCommand_resetstats h⟩
  · exact absurd hcode (Nat.not_lt.2 h)

/-- An event word with `fe` = 1 is a BREAK, whatever its byte is (R83). -/
theorem decodeEvent_brk {w : EventWord} (h : w.getLsbD 8 = true) : decodeEvent w = .brk :=
  if_pos h

/-- An event word with `fe` = 0 is a BYTE of its low eight bits (R83). -/
theorem decodeEvent_byte {w : EventWord} (h : w.getLsbD 8 = false) : decodeEvent w = .byte (w.extractLsb' 0 8) :=
  if_neg (Bool.eq_false_iff.1 h)

/-! ## The fields of the response word -/

/-- The data field holds five packed channels (R88). -/
theorem packed_le_dataWidth (w : Nat) : 40 ≤ dataWidth w :=
  Nat.le_max_left _ _

/-- The data field holds two counters (R88). -/
theorem counters_le_dataWidth (w : Nat) : w + w ≤ dataWidth w :=
  Nat.two_mul w ▸ Nat.le_max_right _ _

section
variable {n : Nat} (ok : BitVec 1) (err : BitVec 3) (data : BitVec n)

/-- `ok` is the top bit of a response word (R88). -/
theorem response_ok_bit : (ok ++ err ++ data).getLsbD (3 + n) = ok.getLsbD 0 := by
  rw [BitVec.getLsbD_append, if_neg (by omega), BitVec.getLsbD_append, if_neg (by omega)]
  congr 1
  omega

/-- `err` stands just above the data bits (R88). -/
theorem response_err_field : (ok ++ err ++ data).extractLsb' n 3 = err := by
  rw [BitVec.extractLsb'_append_eq_of_le n.le_refl, Nat.sub_self, BitVec.extractLsb'_append_eq_right]

end

section
variable {w m : Nat} (x : BitVec (dataWidth w)) {d : RspData} {v : BitVec m}

/-- Where the data of a success is a value written in the low bits, a field of it is that field of the value (R89). -/
theorem responseWord_field (hd : responseData w d = v.setWidth (dataWidth w)) {start len : Nat}
    (h : start + len ≤ dataWidth w) :
    (responseWord w x (.ok d)).extractLsb' start len = v.extractLsb' start len := by
  rw [responseWord_ok_extractLsb' x d h, hd, BitVec.extractLsb'_setWidth_of_le h]

/-- Where the data of a success is a value written in the low bits, every data bit above the value is 0 (R89). -/
theorem responseWord_bit_above (hd : responseData w d = v.setWidth (dataWidth w)) {k : Nat} (hm : m ≤ k)
    (hk : k < dataWidth w) : (responseWord w x (.ok d)).getLsbD k = false := by
  rw [responseWord_ok_getLsbD x d hk, hd, BitVec.getLsbD_setWidth, BitVec.getLsbD_of_ge v k hm, Bool.and_false]

end

section
variable {w : Nat} (x : BitVec (dataWidth w))

theorem responseWord_address (a : BaseAddr) :
    ((responseWord w x (.ok (.address a))).extractLsb' 0 9).toNat = a.val := by
  have hrange := a.range
  have hwidth := packed_le_dataWidth w
  rw [responseWord_field x (v := BitVec.ofNat 9 a.val) rfl (by omega), BitVec.extractLsb'_eq_self,
    BitVec.toNat_ofNat]
  omega

theorem responseWord_flag (b : Bool) : (responseWord w x (.ok (.flag b))).getLsbD 0 = b := by
  have hdata : responseData w (.flag b) = (BitVec.ofBool b).setWidth (dataWidth w) := rfl
  have hpos : 0 < dataWidth w := Nat.lt_of_lt_of_le (by decide) (packed_le_dataWidth w)
  rw [responseWord_ok_getLsbD x _ hpos, hdata, BitVec.getLsbD_setWidth]
  simp [hpos]

/-- The five channels of a success stand where the packing of R89 puts them. -/
theorem responseWord_channels {d : RspData} {c : Channels}
    (hd : responseData w d = (packChannels c).setWidth (dataWidth w)) :
    (responseWord w x (.ok d)).extractLsb' 0 8 = c.red ∧ (responseWord w x (.ok d)).extractLsb' 8 8 = c.green ∧
      (responseWord w x (.ok d)).extractLsb' 16 8 = c.blue ∧
      (responseWord w x (.ok d)).extractLsb' 24 8 = c.dimmer ∧
      (responseWord w x (.ok d)).extractLsb' 32 8 = c.flash := by
  have hwidth := packed_le_dataWidth w
  have hpacked := unpackChannels_packChannels c
  rw [responseWord_field x hd (by omega), responseWord_field x hd (by omega), responseWord_field x hd (by omega),
    responseWord_field x hd (by omega), responseWord_field x hd (by omega)]
  exact ⟨congrArg Channels.red hpacked, congrArg Channels.green hpacked, congrArg Channels.blue hpacked,
    congrArg Channels.dimmer hpacked, congrArg Channels.flash hpacked⟩

/-- A legal counter value loses nothing in its field of the GETSTATS response (R89). -/
theorem responseWord_stats {v i : Nat} (hv : v < 2 ^ w) (hi : i < 2 ^ w) :
    ((responseWord w x (.ok (.stats v i))).extractLsb' 0 w).toNat = v ∧
      ((responseWord w x (.ok (.stats v i))).extractLsb' w w).toNat = i := by
  have hdata : responseData w (.stats v i) = (BitVec.ofNat w i ++ BitVec.ofNat w v).setWidth (dataWidth w) := rfl
  have hwidth := counters_le_dataWidth w
  rw [responseWord_field x hdata (by omega), responseWord_field x hdata (by omega),
    BitVec.extractLsb'_append_eq_right, BitVec.extractLsb'_append_eq_left, BitVec.toNat_ofNat, BitVec.toNat_ofNat]
  exact ⟨Nat.mod_eq_of_lt hv, Nat.mod_eq_of_lt hi⟩

end

/-! ## A reserved code at the consumer's turn -/

/-- The consumer's step on a word with a reserved code (R92). -/
theorem step_reserved {s : State} {ts : List Turn} {w : CommandWord} {cs : List CommandWord}
    (ht : s.turns = .consumer :: ts) (hp : s.progress = none) (hc : s.commands = w :: cs)
    (hcode : 8 ≤ (opField w).toNat) :
    step s = .next (takeReserved ({ s with turns := ts, commands := cs }.record (.tookReserved (opField w)))) := by
  simp only [step, nextAction, ht, consumerMove, hp, hc, decodeCommand_reserved hcode]

/-! ## A BREAK and the BYTEs after it -/

/-- What a BREAK and then the bytes `bs`, with nothing between them, make of the state `s` (R81, R126). -/
structure Received (s : State) (bs : List Byte) (t : State) : Prop where
  cursor : t.cur.val = min bs.length 513
  flag : t.avail = decide (513 ≤ bs.length)
  bytes : ∀ i : Index, t.readByte i = (bs[i.val]?).getD (s.readByte i)
  pulses : armCount t.trace = armCount s.trace + bs.length
  addr : t.addr = s.addr
  counters : SameCounters s t

/-- BREAK rewinds the cursor and clears the flag (R122). -/
theorem exec_brk (s : State) : exec .brk s = .next (s.setCur ⟨0, by decide⟩).clearAvail := rfl

/-- The transport's step on a BREAK: no byte is received yet (R187). -/
theorem received_break {s : State} {ts : List Turn} {w : EventWord} {es : List EventWord}
    (ht : s.turns = .transport :: ts) (he : s.events = w :: es) (hd : decodeEvent w = .brk) :
    ∃ t, step s = .next t ∧ Received s [] t ∧ t.events = es ∧ t.turns = ts := by
  have hstep := step_event ht he
  rw [hd] at hstep
  refine ⟨_, hstep.trans (exec_brk _), ⟨rfl, rfl, fun _ => rfl, ?_, rfl, rfl, rfl⟩, rfl, rfl⟩
  simp [armCount_cons]

/-- A byte behind a list is seen at no other index. -/
theorem getElem?_concat_of_ne {bs : List Byte} {d : Byte} {i : Nat} (h : i ≠ bs.length) :
    (bs ++ [d])[i]? = bs[i]? := by
  rcases Nat.lt_or_gt_of_ne h with hlt | hgt
  · exact List.getElem?_append_left hlt
  · rw [List.getElem?_eq_none (Nat.le_of_lt hgt), List.getElem?_eq_none (by simpa using hgt)]

/-- A byte stored at the cursor is the next byte received (R123). -/
theorem Received.stored {s u : State} {bs : List Byte} (h : Received s bs u) (d : Byte) {k : Index}
    (hk : k.val = u.cur.val) : Received s (bs ++ [d]) (storeAtCursor d k (u.record (.took (.byte d)))).emitArm := by
  have hlen : bs.length = k.val := by
    have hcursor := h.cursor
    have hfilling : k.val < 513 := k.isLt
    omega
  refine ⟨?_, ?_, fun i => ?_, ?_, ?_, ?_⟩
  · simp [storeAtCursor_spec, hlen]
  · simp only [State.emitArm_avail, storeAtCursor_spec, State.record_avail, h.flag, hlen, List.length_append,
      List.length_singleton, ← Bool.decide_or]
    exact decide_eq_decide.2 (by omega)
  · rw [State.readByte_emitArm, storeAtCursor_readByte]
    by_cases hki : k = i
    · rw [if_pos hki, ← hki, ← hlen, List.getElem?_concat_length, Option.getD_some]
    · rw [if_neg hki, getElem?_concat_of_ne fun e => hki (Fin.ext (hlen ▸ e.symm))]
      exact h.bytes i
  · simp [storeAtCursor_spec, armCount_cons, h.pulses, Nat.add_assoc]
  · simp [storeAtCursor_spec, h.addr]
  · simpa [storeAtCursor_spec, SameCounters] using h.counters

/-- A byte discarded in the Full state is beyond the 513th (R126). -/
theorem Received.discarded {s u : State} {bs : List Byte} (h : Received s bs u) (d : Byte) (hfull : u.cur.val = 513) :
    Received s (bs ++ [d]) (u.record (.took (.byte d))).emitArm := by
  have hlen : 513 ≤ bs.length := by
    have hcursor := h.cursor
    omega
  refine ⟨?_, ?_, fun i => ?_, ?_, h.addr, h.counters⟩
  · rw [List.length_append]
    exact hfull.trans (by omega)
  · rw [List.length_append]
    exact h.flag.trans (decide_eq_decide.2 (by omega))
  · rw [getElem?_concat_of_ne (Nat.ne_of_lt (Nat.lt_of_lt_of_le i.isLt hlen))]
    exact h.bytes i
  · simp [armCount_cons, h.pulses, Nat.add_assoc]

/-- The transport's step on a BYTE: one more byte is received (R187). -/
theorem received_byte {s u : State} {bs : List Byte} {d : Byte} {ts : List Turn} {w : EventWord}
    {es : List EventWord} (h : Received s bs u) (ht : u.turns = .transport :: ts) (he : u.events = w :: es)
    (hd : decodeEvent w = .byte d) :
    ∃ t, step u = .next t ∧ Received s (bs ++ [d]) t ∧ t.events = es ∧ t.turns = ts := by
  have hstep := step_event ht he
  rw [hd] at hstep
  have hu : Received s bs { u with turns := ts, events := es } := { h with }
  rcases execByte_cases d ({ u with turns := ts, events := es }.record (.took (.byte d))) with
    ⟨k, hk, hx⟩ | ⟨hfull, hx⟩
  · exact ⟨_, hstep.trans hx, hu.stored d hk, by simp [storeAtCursor_spec], by simp [storeAtCursor_spec]⟩
  · exact ⟨_, hstep.trans hx, hu.discarded d hfull, rfl, rfl⟩

/-- The transport delivers the bytes `bs` after the bytes `before`, one at each of its turns. -/
theorem received_bytes_run {s u : State} {before bs : List Byte} {ws es : List EventWord} {ts : List Turn}
    (h : Received s before u) (he : u.events = ws ++ es) (hd : ws.map decodeEvent = bs.map .byte)
    (ht : u.turns = List.replicate bs.length .transport ++ ts) :
    ∃ t, Reaches bs.length u t ∧ Received s (before ++ bs) t ∧ t.events = es ∧ t.turns = ts := by
  induction bs generalizing before u ws with
  | nil =>
    obtain rfl := List.map_eq_nil_iff.1 hd
    exact ⟨u, rfl, by rwa [List.append_nil], he, ht⟩
  | cons d bs ih =>
    obtain ⟨w, ws, rfl, hw, hws⟩ := List.map_eq_cons_iff.1 hd
    obtain ⟨v, hs, hv, hevents, hturns⟩ := received_byte h ht he hw
    obtain ⟨t, hrun, hreceived, hrest⟩ := ih hv hevents hws hturns
    exact ⟨t, ⟨v, hs, hrun⟩, by rwa [List.append_assoc] at hreceived, hrest⟩

/-! ## The shorthand FRAME -/

/-- The first entry for a channel gives its level (log entry 20). -/
theorem listedLevel_first {before : List (Nat × Byte)} {i : Nat} (h : ∀ u, (i, u) ∉ before) (v : Byte)
    (rest : List (Nat × Byte)) : listedLevel (before ++ (i, v) :: rest) i = v := by
  rw [listedLevel_append h, listedLevel_cons, if_pos rfl]

/-- A channel with no entry has level 0 (R96). -/
theorem listedLevel_unlisted {levels : List (Nat × Byte)} {i : Nat} (h : ∀ u, (i, u) ∉ levels) :
    listedLevel levels i = 0#8 := by
  rw [← List.append_nil levels, listedLevel_append h, listedLevel_nil]

/-- The bytes of a FRAME: the start code, then the level of each channel in turn (R96). -/
def frameBytes (sc : Byte) (levels : List (Nat × Byte)) : List Byte :=
  sc :: (List.range Config.nChannels).map fun i => listedLevel levels (i + 1)

theorem frameShorthand_eq (sc : Byte) (levels : List (Nat × Byte)) :
    frameShorthand sc levels = .brk :: (frameBytes sc levels).map .byte := by
  simp [frameShorthand, frameBytes]

theorem length_frameBytes (sc : Byte) (levels : List (Nat × Byte)) : (frameBytes sc levels).length = 513 := by
  simp [frameBytes]

/-- Byte `i` of a FRAME, counted from 0, is the level of channel `i`. -/
theorem getElem?_frameBytes (sc : Byte) (levels : List (Nat × Byte)) {i : Nat} (h1 : 1 ≤ i) (h512 : i ≤ 512) :
    (frameBytes sc levels)[i]? = some (listedLevel levels i) := by
  obtain ⟨j, rfl⟩ := Nat.exists_eq_add_of_le' h1
  simp [frameBytes, List.getElem?_range (show j < 512 by omega)]

/-! ## The statements -/

/-- Settles O30, operation by operation: each field that the operation uses reads back as written. -/
theorem decodeInvertsEncode : Obligations.DecodeInvertsEncode := by
  intro i
  cases i with
  | brk => simp [decode, encode, decodeEvent_brk]
  | byte d => simp [decode, encode, decodeEvent_byte]
  | init a => simp [decode, encode, decodeCommand_init]
  | setaddr a => simp [decode, encode, decodeCommand_setaddr]
  | getaddr => simp [decode, encode, decodeCommand_getaddr]
  | isavail => simp [decode, encode, decodeCommand_isavail]
  | decode p => simp [decode, encode, decodeCommand_decode]
  | applydimmer p c => simp [decode, encode, decodeCommand_applydimmer]
  | getstats => simp [decode, encode, decodeCommand_getstats]
  | resetstats => simp [decode, encode, decodeCommand_resetstats]

/-- Settles O31: code by code, the fields that the operation uses are the ones assumed equal. -/
theorem ignoredBitsPlayNoPart : Obligations.IgnoredBitsPlayNoPart := by
  refine ⟨fun w v hop hpresent haddr harg => ?_, fun w v hw hv => by rw [decodeEvent_brk hw, decodeEvent_brk hv]⟩
  rcases opCode_cases (opField w) with h | h | h | h | h | h | h | h | h <;> have hv := h <;> rw [hop] at hv
  · rw [decodeCommand_init h, decodeCommand_init hv, haddr (.inl h)]
  · rw [decodeCommand_setaddr h, decodeCommand_setaddr hv, haddr (.inr h)]
  · rw [decodeCommand_getaddr h, decodeCommand_getaddr hv]
  · rw [decodeCommand_isavail h, decodeCommand_isavail hv]
  · rw [decodeCommand_decode h, decodeCommand_decode hv, hpresent (.inl h)]
  · rw [decodeCommand_applydimmer h, decodeCommand_applydimmer hv, hpresent (.inr h), harg h]
  · rw [decodeCommand_getstats h, decodeCommand_getstats hv]
  · rw [decodeCommand_resetstats h, decodeCommand_resetstats hv]
  · rw [decodeCommand_reserved h, decodeCommand_reserved hv, hop]

/-- Settles O32: a word with a lower code is read as an operation, and that is one of its own port. -/
theorem onlyCodesEightToFifteenAreReserved : Obligations.OnlyCodesEightToFifteenAreReserved := by
  refine ⟨fun w => decodeCommand_reserved, fun w hcode => ?_, fun w => wellFormed_iff_port.2 (decodeEvent_port w)⟩
  obtain ⟨i, hi⟩ := decodeCommand_op hcode
  exact ⟨i, hi, wellFormed_iff_port.2 (decodeCommand_port hi)⟩

/-- Settles O34: `ok` and `err` above the data, and the data of each success as a value written in the low bits. -/
theorem responseWordFields : Obligations.ResponseWordFields := by
  intro w x
  refine ⟨rfl, fun d => ⟨response_ok_bit _ _ _, response_err_field _ _ _⟩, fun k => response_ok_bit _ _ _,
    response_err_field _ _ _, response_err_field _ _ _, response_err_field _ _ _, response_err_field _ _ _,
    fun k hk => ?_, fun a => ?_, fun b => ?_, fun c d hd => ?_, fun v i hv hi => ?_⟩
  · exact (responseWord_ok_getLsbD x .empty hk).trans BitVec.getLsbD_zero
  · exact ⟨responseWord_address x a, fun k => responseWord_bit_above x (v := BitVec.ofNat 9 a.val) rfl⟩
  · exact ⟨responseWord_flag x b, fun k => responseWord_bit_above x (v := BitVec.ofBool b) rfl⟩
  · have hdata : responseData w d = (packChannels c).setWidth (dataWidth w) := by
      rcases hd with rfl | rfl <;> rfl
    obtain ⟨hred, hgreen, hblue, hdimmer, hflash⟩ := responseWord_channels x hdata
    exact ⟨hred, hgreen, hblue, hdimmer, hflash, fun k => responseWord_bit_above x hdata⟩
  · obtain ⟨hvalid, hinvalid⟩ := responseWord_stats x hv hi
    exact ⟨hvalid, hinvalid, fun k hk => responseWord_bit_above x (v := BitVec.ofNat w i ++ BitVec.ofNat w v) rfl
      (by omega)⟩

/-- Settles O48: the BREAK rewinds the receiver, and each BYTE after it adds one byte to what is received. -/
theorem breakThenBytesFillsInOrder : Obligations.BreakThenBytesFillsInOrder := by
  intro s w ws bs es ts he hw hws ht
  obtain ⟨u, hs, hbreak, hevents, hturns⟩ := received_break ht he hw
  obtain ⟨t, hrun, hreceived, hevents', hturns'⟩ := received_bytes_run hbreak hevents hws hturns
  exact ⟨t, ⟨u, hs, hrun⟩, hreceived.cursor, hreceived.flag, hreceived.bytes, hreceived.pulses, hreceived.addr,
    hreceived.counters, hevents', hturns'⟩

/-- Settles O5: the step answers the reserved code and uses up the word and the turn. -/
theorem stepAnswersReservedCode : Obligations.StepAnswersReservedCode := by
  intro s ts w cs ht hp hc hcode
  exact ⟨_, step_reserved ht hp hc hcode, fun _ => rfl, ⟨rfl, rfl⟩, rfl, ⟨rfl, rfl⟩, hp, rfl, rfl, rfl, rfl, rfl,
    rfl⟩

/-- Settles O33: each word is closed, and is read by evaluation. -/
theorem sampleWordsDecode : Obligations.SampleWordsDecode := by
  unfold Obligations.SampleWordsDecode
  decide

/-- Settles O35: the low 40 data bits of the response are the packed channels, which unpack to the channels. -/
theorem decodedChannelsFeedDimmer : Obligations.DecodedChannelsFeedDimmer := by
  intro w c
  have hdata : (responseData w (.decoded c)).setWidth 40 = packChannels c :=
    (BitVec.setWidth_setWidth_of_le (packChannels c) (Nat.le_max_left 40 (2 * w))).trans (BitVec.setWidth_eq _)
  rw [hdata]
  exact decodeInvertsEncode (.applydimmer true c)

/-- Settles O52, with the bytes of the FRAME as the witness. -/
theorem frameShorthandIsWholeFrame : Obligations.FrameShorthandIsWholeFrame := by
  intro sc levels
  refine ⟨frameBytes sc levels, frameShorthand_eq sc levels, length_frameBytes sc levels, rfl, fun i h1 h512 => ?_⟩
  rw [getElem?_frameBytes sc levels h1 h512]
  refine ⟨fun before v rest hlevels hbefore => ?_, fun hunlisted => congrArg some (listedLevel_unlisted hunlisted)⟩
  rw [hlevels, listedLevel_first hbefore]

end Sys2Proof.Machine

/-! PROOFS. Address configuration (spec/40_address_config.md): SETADDR and GETADDR, and the law that ties them (R110 to
R112). -/

namespace Sys2Proof.Machine

/-! ## Storing an address operand -/

theorem storeAddress_legal {v : AddrOperand} (hv : 1 ≤ v.toNat ∧ v.toNat ≤ 506) (s : State) :
    ∃ a : BaseAddr, a.val = v.toNat ∧ storeAddress v s = returnOk .empty (s.setAddr a) :=
  (storeAddress_cases v s).resolve_right fun ⟨hillegal, _⟩ => hillegal hv

theorem storeAddress_illegal {v : AddrOperand} (hv : ¬ (1 ≤ v.toNat ∧ v.toNat ≤ 506)) (s : State) :
    storeAddress v s = returnFail .invalidAddress s := by
  rcases storeAddress_cases v s with ⟨a, ha, -⟩ | ⟨-, hfails⟩
  · exact absurd (ha ▸ a.range) hv
  · exact hfails

/-- Whatever the operand, only the address and the trace can change. -/
theorem storeAddress_frame (v : AddrOperand) (s : State) :
    SameReceiver s (storeAddress v s) ∧ SameBuffer s (storeAddress v s) ∧ SameCounters s (storeAddress v s) ∧
      (storeAddress v s).progress = s.progress ∧ SameSetting s (storeAddress v s) := by
  obtain ⟨a, r, -, hstored⟩ := storeAddress_eq_respond v s
  rw [hstored]
  exact ⟨⟨rfl, rfl⟩, fun _ => rfl, ⟨rfl, rfl⟩, rfl, rfl, rfl, rfl, rfl, rfl⟩

/-! ## The two operations -/

theorem exec_setaddr (v : AddrOperand) (s : State) : exec (.setaddr v) s = .next (storeAddress v s) := rfl

/-- GETADDR answers the address and does nothing else (R111). -/
theorem exec_getaddr (s : State) : exec .getaddr s = .next (s.respond (.ok (.address s.addr))) := rfl

/-! ## The default address -/

/-- The step at a turn of `rst` is the reset (R210). -/
theorem step_reset {s : State} {ts : List Turn} (ht : s.turns = .rst :: ts) :
    step s = .next (takeReset ({ s with turns := ts }.record .resetTaken)) := by
  simp only [step, nextAction, ht]

/-- R24, R34: a step that takes neither a SETADDR nor an INIT keeps the address, or is a reset and makes it the
default. -/
theorem step_addr_kept_or_default {s t : State} (h : step s = .next t)
    (hsetaddr : ∀ v u, nextAction s ≠ .run (.setaddr v) u) (hinit : ∀ v u, nextAction s ≠ .run (.init v) u) :
    t.addr = s.addr ∨ t.addr = BaseAddr.default := by
  refine or_iff_not_imp_left.2 fun hdiffers => ?_
  rcases addressChangesOnlyBySetaddrOrInit s t h hdiffers with ⟨v, u, ha⟩ | ⟨v, u, ha⟩ | ⟨ts, ht⟩
  · exact absurd ha (hsetaddr v u)
  · exact absurd ha (hinit v u)
  · cases (step_reset ht).symm.trans h
    rfl

/-! ## The statements -/

/-- Settles O13: code 1 is SETADDR, and SETADDR is the storing of its operand, legal or not. -/
theorem setaddrStoresLegalAddressOnly : Obligations.SetaddrStoresLegalAddressOnly := by
  refine ⟨fun w => decodeCommand_setaddr, fun v s =>
    ⟨_, exec_setaddr v s, fun hlegal => ?_, fun hillegal => ?_, storeAddress_frame v s⟩⟩
  · obtain ⟨a, ha, hstored⟩ := storeAddress_legal hlegal s
    rw [hstored]
    exact ⟨ha, rfl⟩
  · rw [storeAddress_illegal (by omega) s]
    exact ⟨rfl, rfl⟩

/-- Settles O14: code 2 is GETADDR, GETADDR only answers, and the default address is 1. -/
theorem getaddrAnswersAddress : Obligations.GetaddrAnswersAddress := by
  refine ⟨fun w => decodeCommand_getaddr, fun s => ?_, rfl, fun s t hone hs hsetaddr hinit => ?_⟩
  · exact ⟨_, exec_getaddr s, rfl, ⟨rfl, rfl⟩, fun _ => rfl, ⟨rfl, rfl⟩, rfl, rfl, rfl, rfl, rfl, rfl, rfl⟩
  · rcases step_addr_kept_or_default hs hsetaddr hinit with hkept | hdefault
    · exact hkept ▸ hone
    · exact congrArg BaseAddr.val hdefault

/-- Settles O15: GETADDR answers the address that SETADDR left, the operand if it is legal and else the old one. -/
theorem setThenGetAddress : Obligations.SetThenGetAddress := by
  intro v s
  refine ⟨_, _, (storeAddress v s).addr, exec_setaddr v s, exec_getaddr _, rfl, fun hlegal => ?_,
    fun hillegal => ?_⟩
  · obtain ⟨a, ha, hstored⟩ := storeAddress_legal hlegal s
    rw [hstored]
    exact ⟨ha, rfl⟩
  · rw [storeAddress_illegal hillegal s]
    exact ⟨rfl, rfl, rfl⟩

end Sys2Proof.Machine

/-! PROOFS. The frame receiver (spec/41_frame_receiver.md): BREAK, BYTE and ISAVAIL, and the testable laws of R129. -/

namespace Sys2Proof.Machine

/-! ## Every prefix of a run of BYTEs -/

/-- At each point of the run of a BREAK and then the bytes `bs`, the bytes delivered up to there are received: the words
and the turns of the others wait behind them (R129 (b)). -/
theorem received_prefix_run {s : State} {w : EventWord} {ws es : List EventWord} {bs : List Byte} {ts : List Turn}
    (he : s.events = w :: (ws ++ es)) (hw : decodeEvent w = .brk) (hws : ws.map decodeEvent = bs.map .byte)
    (ht : s.turns = List.replicate (bs.length + 1) .transport ++ ts) {n : Nat} (hn : n ≤ bs.length) :
    ∃ t, Reaches (n + 1) s t ∧ Received s (bs.take n) t := by
  obtain ⟨u, hs, hbreak, hevents, hturns⟩ := received_break ht he hw
  have hlen : (bs.take n).length = n := List.length_take_of_le hn
  have hevents_n : u.events = ws.take n ++ (ws.drop n ++ es) := by
    rw [hevents, ← List.append_assoc, List.take_append_drop]
  have hws_n : (ws.take n).map decodeEvent = (bs.take n).map .byte := by
    rw [List.map_take, hws, List.map_take]
  have hturns_n : u.turns = List.replicate (bs.take n).length .transport ++
      (List.replicate (bs.length - n) .transport ++ ts) := by
    rw [hturns, hlen, ← List.append_assoc, List.replicate_append_replicate, Nat.add_sub_cancel' hn]
    rfl
  obtain ⟨t, hrun, hreceived, -⟩ := received_bytes_run hbreak hevents_n hws_n hturns_n
  exact ⟨t, ⟨u, hs, hlen ▸ hrun⟩, hreceived⟩

/-- Once 513 bytes are received, every index holds the byte delivered for it (R126, R129 (c)). -/
theorem Received.whole_frame {s t : State} {bs : List Byte} (h : Received s bs t) (hlen : 513 ≤ bs.length) (i : Index) :
    bs[i.val]? = some (t.readByte i) := by
  rw [h.bytes i, List.getElem?_eq_getElem (Nat.lt_of_lt_of_le i.isLt hlen), Option.getD_some]

/-! ## A flag that is down stays down until a frame is completed -/

/-- Storing the byte of index 512 completes the frame (R123). -/
theorem completesNext_of_storesNext {s : State} {i : Index} (hi : storesNext s = some i) (hlast : i.val = 512) :
    completesNext s = true := by
  simp [completesNext, hi, hlast]

/-- R23: only the step that completes a frame raises the flag. -/
theorem step_avail_stays_down {s t : State} (h : step s = .next t) (hdown : s.avail = false)
    (hnone : completesNext s = false) : t.avail = false := by
  rw [← Bool.not_eq_true]
  intro hup
  obtain ⟨-, -, i, hi, hlast⟩ := flagRisesOnlyAtLastByte s t h hdown hup
  rw [completesNext_of_storesNext hi hlast] at hnone
  cases hnone

/-- A run of any length and any interleaving in which no frame is completed leaves the flag down (R129 (d)). -/
theorem reaches_avail_stays_down {n : Nat} {s t : State} (hdown : s.avail = false) (hnone : completesNone n s = true)
    (hrun : Reaches n s t) : t.avail = false := by
  induction n generalizing s with
  | zero =>
    obtain rfl : s = t := hrun
    exact hdown
  | succ n ih =>
    obtain ⟨u, hs, hrest⟩ := hrun
    obtain ⟨hfirst, hnone'⟩ := completesNone_step hnone hs
    exact ih (step_avail_stays_down hs hdown hfirst) hnone' hrest

/-! ## The statements -/

/-- Settles O53: (a) is BREAK itself, (b) and (c) read off what is received at a point of the run, and (d) holds since
the first ISAVAIL leaves the flag 0. -/
theorem receiverTestableLaws : Obligations.ReceiverTestableLaws := by
  refine ⟨fun s => ⟨_, exec_brk s, rfl, rfl⟩, fun s w ws bs es ts he hw hws ht => ⟨fun n hn => ?_, fun h600 => ?_⟩,
    fun s havail => ⟨_, exec_isavail s, havail ▸ rfl, fun n u hnone hrun => ?_⟩⟩
  · obtain ⟨t, hrun, hreceived⟩ := received_prefix_run he hw hws ht hn
    refine ⟨t, hrun, ?_⟩
    rw [hreceived.flag, List.length_take_of_le hn]
  · obtain ⟨t, hrun, hreceived⟩ := received_prefix_run he hw hws ht h600.ge
    rw [List.take_of_length_le h600.le] at hreceived
    refine ⟨t, hrun, ?_, ?_, hreceived.whole_frame (by omega)⟩
    · rw [hreceived.flag, h600]
      rfl
    · rw [hreceived.cursor, h600]
      rfl
  · have hdown : u.avail = false := reaches_avail_stays_down rfl hnone hrun
    exact ⟨_, exec_isavail u, hdown ▸ rfl⟩

/-- Settles O9: BREAK writes the cursor and the flag. -/
theorem breakRewindsReceiver : Obligations.BreakRewindsReceiver :=
  ⟨fun _ => decodeEvent_brk, fun s =>
    ⟨_, exec_brk s, rfl, rfl, fun _ => rfl, rfl, ⟨rfl, rfl⟩, rfl, rfl, rfl, rfl, rfl, rfl, rfl⟩⟩

/-- Settles O10: a BYTE is stored at the cursor while Filling and only pulses while Full; in both states it leaves what
every event operation leaves. -/
theorem byteStoresOrIsDiscarded : Obligations.ByteStoresOrIsDiscarded := by
  refine ⟨fun w => decodeEvent_byte, fun d s => ?_⟩
  rcases execByte_cases d s with ⟨k, hk, hx⟩ | ⟨hfull, hx⟩ <;>
    obtain ⟨haddr, hcounters, hprogress, hsetting⟩ := eventsLeaveConsumerRegisters (.byte d) s _ rfl hx
  · have hfilling : s.cur.val < 513 := hk ▸ k.isLt
    refine ⟨_, hx, fun _ => ⟨?_, fun i => ?_, ?_⟩, fun hfull => absurd hfull hfilling.ne, haddr, hcounters, hprogress,
      ?_, hsetting⟩
    · simp [storeAtCursor_spec, hk]
    · rw [State.readByte_emitArm, storeAtCursor_readByte]
      exact if_congr (by rw [← hk, Fin.ext_iff, eq_comm]) rfl rfl
    · by_cases hlast : s.cur.val = 512 <;> simp [storeAtCursor_spec, hk, hlast]
    · simp [storeAtCursor_spec]
  · exact ⟨_, hx, fun hfilling => absurd hfull hfilling.ne, fun _ => ⟨⟨rfl, rfl⟩, fun _ => rfl⟩, haddr, hcounters,
      hprogress, rfl, hsetting⟩

/-- Settles O11: code 3 is ISAVAIL, and ISAVAIL writes the flag alone and answers it as it was. -/
theorem isavailTestsAndClears : Obligations.IsavailTestsAndClears :=
  ⟨fun _ => decodeCommand_isavail, fun s =>
    ⟨_, exec_isavail s, rfl, rfl, fun _ => rfl, rfl, ⟨rfl, rfl⟩, rfl, rfl, rfl, rfl, rfl, rfl, rfl⟩⟩

end Sys2Proof.Machine

/-! PROOFS. The frame decoder (spec/42_frame_decoder.md): the first segment of DECODE, the later segments one by one,
and the two ways in which a DECODE with its destination present ends (R140 to R146). -/

namespace Sys2Proof.Machine

/-! ## The first segment -/

/-- With the destination present the first segment samples the address and reads the start code (R141). -/
theorem exec_decode_present (s : State) :
    exec (.decode true) s = .next (s.setProgress (some (.startRead s.addr (s.readByte startIndex)))) := rfl

/-- With the destination absent DECODE only answers (R143). -/
theorem exec_decode_absent (s : State) :
    exec (.decode false) s = .next (s.respond (.fail .nullArgument)) := rfl

/-! ## The later segments -/

theorem resumeDecode_accepts_startCode (a : BaseAddr) {start : Byte} (h : start = 0#8) (s : State) :
    resumeDecode (.startRead a start) s = s.setProgress (some (.redRead a (s.readByte (windowIndex a 0)))) :=
  if_pos h

theorem resumeDecode_refuses_startCode (a : BaseAddr) {start : Byte} (h : start ≠ 0#8) (s : State) :
    resumeDecode (.startRead a start) s = returnFail .invalidStartCode (s.setProgress none).countInvalid :=
  if_neg h

section
variable {s : State} {ts : List Turn}

/-- The step of a segment that reads a channel and goes on: nothing but the progress changes. -/
theorem step_reads_on {d d' : DecodeProgress} (ht : s.turns = .consumer :: ts) (hp : s.progress = some d)
    (hreads : resumeDecode d ({ s with turns := ts }.record .resumed) =
      ({ s with turns := ts }.record .resumed).setProgress (some d')) :
    ∃ t, step s = .next t ∧ t.progress = some d' ∧ SameCounters s t ∧ t.trace = .resumed :: s.trace :=
  ⟨_, (step_resume ht hp).trans (congrArg _ hreads), rfl, ⟨rfl, rfl⟩, rfl⟩

/-- The step of the segment that finds another start code: it ends the DECODE, counts one failure, and leaves the rest
of the consumer's registers and its commands (R141, R146). -/
theorem step_refuses_startCode {a : BaseAddr} {start : Byte} (ht : s.turns = .consumer :: ts)
    (hp : s.progress = some (.startRead a start)) (hbad : start ≠ 0#8) :
    ∃ t, step s = .next t ∧ t.trace = .response (.fail .invalidStartCode) :: .resumed :: s.trace ∧
      t.valid = s.valid ∧ t.invalid = incCounter s.cfg.cntW s.cfg.cntOvf s.invalid ∧ t.progress = none ∧
      t.addr = s.addr ∧ t.commands = s.commands ∧ t.turns = ts :=
  ⟨_, (step_resume ht hp).trans (congrArg _ (resumeDecode_refuses_startCode a hbad _)), rfl, rfl, rfl, rfl, rfl, rfl,
    rfl⟩

end

/-! ## The statements -/

/-- Settles O19: the run of an undisturbed DECODE ends in the response of the window, and only that last segment counts
and ends the progress. -/
theorem quietDecodeReturnsWindow : Obligations.QuietDecodeReturnsWindow := by
  intro s w cs ns ts hp hc hd hlen ht hquiet hstart
  obtain ⟨v, hrun, hturns, haddr, ⟨hvalid, hinvalid⟩, hcfg, hcommands⟩ :=
    quiet_decode_run hp hc hd hlen ht hquiet hstart
  exact ⟨_, hrun, rfl, by simp [hcfg, hvalid], hinvalid, rfl, haddr, hcommands, hturns⟩

/-- Settles O20: the start code stands in the progress from the first step on, so no transport turn can mend it, and the
next segment refuses it. -/
theorem decodeRejectsBadStartCode : Obligations.DecodeRejectsBadStartCode := by
  intro s w cs n ts hp hc hd ht hbad
  obtain ⟨u, hs, hprogress, hturns, hconsumer, -⟩ := step_decode hp hc hd ht
  obtain ⟨v, hwait, hturns', hprogress', hconsumer', -⟩ := transport_run hturns
  obtain ⟨haddr, ⟨hvalid, hinvalid⟩, hcfg, hcommands⟩ := hconsumer.trans hconsumer'
  obtain ⟨t, hlast, htrace, htvalid, htinvalid, htprogress, htaddr, htcommands, htturns⟩ :=
    step_refuses_startCode hturns' (hprogress'.trans hprogress) hbad
  refine ⟨t, ⟨u, hs, reaches_add hwait (reaches_one hlast)⟩, by simp [htrace], htvalid.trans hvalid, ?_, htprogress,
    htaddr.trans haddr, htcommands.trans hcommands, htturns⟩
  rw [htinvalid, hcfg, hinvalid]

/-- Settles O7: the test of the start code has its two outcomes, the next three segments read on, and the last
answers. -/
theorem decodeSegmentsReadCurrentBuffer : Obligations.DecodeSegmentsReadCurrentBuffer := by
  intro s ts a ht
  refine ⟨fun start hp hbad => ?_, fun hp => step_reads_on ht hp (resumeDecode_accepts_startCode a rfl _),
    fun r hp => step_reads_on ht hp rfl, fun r g hp => step_reads_on ht hp rfl,
    fun r g b hp => step_reads_on ht hp rfl, fun r g b d hp => ?_⟩
  · obtain ⟨t, hs, htrace, hvalid, hinvalid, hprogress, -⟩ := step_refuses_startCode ht hp hbad
    exact ⟨t, hs, hprogress, hvalid, hinvalid, htrace⟩
  · exact ⟨_, (step_resume ht hp).trans (congrArg _ (resumeDecode_answers rfl _)), rfl, rfl, rfl, rfl⟩

/-- Settles O17: code 4 is DECODE of the present bit, and its first segment writes the progress alone. -/
theorem decodeSamplesAddressAndStartCode : Obligations.DecodeSamplesAddressAndStartCode :=
  ⟨fun _ => decodeCommand_decode, fun s =>
    ⟨_, exec_decode_present s, rfl, rfl, ⟨rfl, rfl⟩, fun _ => rfl, ⟨rfl, rfl⟩, rfl, rfl, rfl, rfl, rfl, rfl⟩⟩

/-- Settles O18: a DECODE with its destination absent only answers. -/
theorem decodeNullChangesNothing : Obligations.DecodeNullChangesNothing :=
  fun s => ⟨_, exec_decode_absent s, rfl, rfl, ⟨rfl, rfl⟩, fun _ => rfl, ⟨rfl, rfl⟩, rfl, rfl, rfl, rfl, rfl, rfl⟩

end Sys2Proof.Machine

/-! PROOFS. The compositor (spec/43_dimmer_compositor.md): the scaling law, its two cheaper computations, and
APPLYDIMMER (R150 to R155). -/

namespace Sys2Proof.Machine

/-! ## The product of two bytes -/

theorem byte_toNat_le (b : Byte) : b.toNat ≤ 255 :=
  Nat.le_of_lt_succ b.isLt

/-- The product of two bytes is far enough below 2^16 for 16 bits (R153) and for the shifts (R155). -/
theorem byte_product_le (c d : Byte) : c.toNat * d.toNat ≤ 65025 :=
  Nat.mul_le_mul (byte_toNat_le c) (byte_toNat_le d)

/-! ## The scaled value -/

theorem scaleByte_comm (c d : Byte) : scaleByte c d = scaleByte d c := by
  unfold scaleByte
  rw [Nat.mul_comm]

/-- Scaling never makes a colour brighter (R154 (a)). -/
theorem scaleByte_le_colour (c d : Byte) : (scaleByte c d).toNat ≤ c.toNat := by
  rw [scaleByte_toNat]
  exact Nat.div_le_of_le_mul (Nat.mul_comm 255 _ ▸ Nat.mul_le_mul_left _ (byte_toNat_le d))

/-- The quotient reaches the colour exactly when `255 * c ≤ c * d` (R154 (b)). -/
theorem scaleByte_eq_colour_iff (c d : Byte) : scaleByte c d = c ↔ d = 255#8 ∨ c = 0#8 := by
  constructor
  · intro h
    have hreached : c.toNat * 255 ≤ c.toNat * d.toNat := by
      rw [← Nat.le_div_iff_mul_le (by decide), ← scaleByte_toNat, h]
    rcases Nat.eq_zero_or_pos c.toNat with hzero | hpos
    · exact .inr (BitVec.eq_of_toNat_eq hzero)
    · have hfull : 255 ≤ d.toNat := Nat.le_of_mul_le_mul_left hreached hpos
      exact .inl (BitVec.eq_of_toNat_eq (Nat.le_antisymm (byte_toNat_le d) hfull))
  · rintro (rfl | rfl) <;> apply BitVec.eq_of_toNat_eq <;> rw [scaleByte_toNat]
    · exact Nat.mul_div_cancel _ (by decide)
    · simp

/-- R154 (c). -/
theorem scaleByte_eq_zero_iff (c d : Byte) : scaleByte c d = 0#8 ↔ c.toNat * d.toNat < 255 := by
  rw [← BitVec.toNat_inj, scaleByte_toNat]
  exact Nat.div_eq_zero_iff_lt (by decide)

/-- R154 (e). -/
theorem scaleByte_mono {c c' d d' : Byte} (hc : c.toNat ≤ c'.toNat) (hd : d.toNat ≤ d'.toNat) :
    (scaleByte c d).toNat ≤ (scaleByte c' d').toNat := by
  rw [scaleByte_toNat, scaleByte_toNat]
  exact Nat.div_le_div_right (Nat.mul_le_mul hc hd)

/-! ## The 16-bit product and the shifts -/

/-- The 16-bit product of two bytes is their exact product (R153). -/
theorem product16_toNat (c d : Byte) : (c.setWidth 16 * d.setWidth 16).toNat = c.toNat * d.toNat := by
  have hfits := byte_product_le c d
  rw [BitVec.toNat_mul, BitVec.toNat_setWidth_of_le (by decide), BitVec.toNat_setWidth_of_le (by decide)]
  exact Nat.mod_eq_of_lt (by omega)

/-- With `x = 256 * q + r` the sum is `256 * q + (q + r + 1)`, and 255 goes into `x` once more than `q` times exactly
when `q + r` is at least 255; at `x = 65535` this fails (R155). -/
theorem div_255_eq_shifts {x : Nat} (hx : x < 65535) : x / 255 = (x + 1 + (x >>> 8)) >>> 8 := by
  simp only [Nat.shiftRight_eq_div_pow]
  omega

/-! ## APPLYDIMMER -/

/-- With its argument present APPLYDIMMER only answers the scaled channels (R151). -/
theorem exec_applydimmer_present (c : Channels) (s : State) :
    exec (.applydimmer true c) s = .next (s.respond (.ok (.dimmed (scaleChannels c)))) := rfl

/-- With its argument absent APPLYDIMMER only answers the failure (R151). -/
theorem exec_applydimmer_absent (c : Channels) (s : State) :
    exec (.applydimmer false c) s = .next (s.respond (.fail .nullArgument)) := rfl

/-! ## The statements -/

/-- Settles O23: (a) is the bound by the colour and, by symmetry, the bound by the dimmer. -/
theorem scaledColourFacts : Obligations.ScaledColourFacts :=
  fun c d => ⟨le_min (scaleByte_le_colour c d) (scaleByte_comm c d ▸ scaleByte_le_colour d c),
    scaleByte_eq_colour_iff c d, scaleByte_eq_zero_iff c d, scaleByte_comm c d, fun _ _ => scaleByte_mono⟩

/-- Settles O24: the 16-bit product is exact, and the low byte of its quotient is what `scaleByte` takes. -/
theorem sixteenBitProductSuffices : Obligations.SixteenBitProductSuffices := by
  intro c d
  apply BitVec.eq_of_toNat_eq
  rw [BitVec.toNat_setWidth, BitVec.toNat_udiv, product16_toNat]
  rfl

/-- Settles O25: every product of two bytes is in the range in which the shifts divide by 255. -/
theorem divisionByShifts : Obligations.DivisionByShifts :=
  fun c d => (scaleByte_toNat c d).trans (div_255_eq_shifts (Nat.lt_of_le_of_lt (byte_product_le c d) (by decide)))

/-- Settles O22: code 5 is APPLYDIMMER of its fields; the one result of the channels is `scaleChannels`, which the
state does not enter. -/
theorem applydimmerScalesColours : Obligations.ApplydimmerScalesColours := by
  refine ⟨fun w => decodeCommand_applydimmer, fun c => ⟨scaleChannels c, scaleByte_toNat _ _, scaleByte_toNat _ _,
    scaleByte_toNat _ _, rfl, rfl, fun s => ⟨_, exec_applydimmer_present c s, ?_⟩⟩,
    fun c s => ⟨_, exec_applydimmer_absent c s, ?_⟩⟩ <;>
  exact ⟨rfl, ⟨rfl, rfl⟩, fun _ => rfl, rfl, ⟨rfl, rfl⟩, rfl, rfl, rfl, rfl, rfl, rfl⟩

end Sys2Proof.Machine

/-! PROOFS. The statistics counters (spec/44_stats_tracker.md): GETSTATS, RESETSTATS, and the increment of a counter
(R160 to R163). -/

namespace Sys2Proof.Machine

/-! ## The two operations -/

/-- GETSTATS answers both counters and does nothing else (R160). -/
theorem exec_getstats (s : State) : exec .getstats s = .next (s.respond (.ok (.stats s.valid s.invalid))) := rfl

/-- RESETSTATS clears both counters and answers (R161). -/
theorem exec_resetstats (s : State) : exec .resetstats s = .next (s.clearCounters.respond (.ok .empty)) := rfl

/-! ## The statements -/

/-- Settles O29, by induction on the number of increments: each starts below the greatest value, where the setting plays
no part. -/
theorem overflowSettingsAgreeBelowMaximum : Obligations.OverflowSettingsAgreeBelowMaximum := by
  intro w n ovf hn
  induction n with
  | zero => rfl
  | succ n ih => rw [Function.iterate_succ_apply', ih (Nat.le_of_succ_le hn), incCounter_lt hn]

/-- Settles O26: code 6 is GETSTATS, and GETSTATS only answers. -/
theorem getstatsAnswersBothCounters : Obligations.GetstatsAnswersBothCounters :=
  ⟨fun _ => decodeCommand_getstats, fun s =>
    ⟨_, exec_getstats s, rfl, ⟨rfl, rfl⟩, fun _ => rfl, rfl, ⟨rfl, rfl⟩, rfl, rfl, rfl, rfl, rfl, rfl⟩⟩

/-- Settles O27: code 7 is RESETSTATS, and RESETSTATS clears the two counters and answers. -/
theorem resetstatsClearsBothCounters : Obligations.ResetstatsClearsBothCounters :=
  ⟨fun _ => decodeCommand_resetstats, fun s =>
    ⟨_, exec_resetstats s, rfl, rfl, rfl, ⟨rfl, rfl⟩, fun _ => rfl, rfl, rfl, rfl, rfl, rfl, rfl, rfl⟩⟩

/-- Settles O28: one equation of the increment for each case, and the parameters at reset. -/
theorem counterIncrementCases : Obligations.CounterIncrementCases :=
  ⟨fun _ _ => ⟨fun _ => incCounter_lt, fun hmax => incCounter_wrap_max hmax.not_lt,
    fun hmax => incCounter_saturate_max hmax.not_lt⟩, rfl, rfl⟩

end Sys2Proof.Machine

/-! PROOFS. Initialisation (spec/45_init.md): INIT (R170). -/

namespace Sys2Proof.Machine

/-- INIT is the storing of its operand after the registers are put at their reset values and the transport is armed
(R170). -/
theorem exec_init (v : AddrOperand) (s : State) :
    exec (.init v) s = .next (storeAddress v s.registersAtReset.emitArm) := rfl

/-- Settles O16: the storing of the operand keeps the reset values of every register but the address, and what INIT does
not reset it keeps as well. -/
theorem initResetsThenSetsAddress : Obligations.InitResetsThenSetsAddress := by
  refine ⟨fun w => decodeCommand_init, fun v s => ?_⟩
  obtain ⟨⟨hcur, havail⟩, hbuf, ⟨hvalid, hinvalid⟩, hprogress, hsetting⟩ :=
    storeAddress_frame v s.registersAtReset.emitArm
  refine ⟨_, exec_init v s, congrArg Fin.val hcur, havail, hvalid, hinvalid, fun hlegal => ?_, fun hillegal => ?_,
    hbuf, hprogress, hsetting⟩
  · obtain ⟨a, ha, hstored⟩ := storeAddress_legal hlegal s.registersAtReset.emitArm
    rw [hstored]
    exact ⟨ha, rfl⟩
  · rw [storeAddress_illegal (by omega) s.registersAtReset.emitArm]
    exact ⟨rfl, rfl⟩

end Sys2Proof.Machine

/-! PROOFS. Reset (spec/70_reset_and_hazards.md): the step in which `rst` is asserted (R210, R213). -/

namespace Sys2Proof.Machine

/-- No stored byte is left after a reset: every index reads as its free value under the next draw (R34, R210). -/
@[simp] theorem takeReset_readByte (s : State) (i : Index) :
    (takeReset s).readByte i = Config.resetByte (s.draw + 1) i.val := by
  simp only [State.readByte, takeReset_buf, Memory.peek_nil, Option.getD_none, unlistedByte, takeReset_draw]

/-- A reset puts every register at its value of R34 and abandons a DECODE in progress (R210, R213). -/
theorem takeReset_registers (s : State) :
    (takeReset s).addr.val = 1 ∧ (takeReset s).cur.val = 0 ∧ (takeReset s).avail = false ∧
      (takeReset s).valid = 0 ∧ (takeReset s).invalid = 0 ∧ (takeReset s).progress = none :=
  ⟨rfl, rfl, rfl, rfl, rfl, rfl⟩

/-- Settles O2: the step at a turn of `rst` is the reset of the state with that turn used up and entered in the trace.
The reset itself adds nothing to the trace, so there is neither a pulse nor a response. -/
theorem resetStepRestoresRegisters : Obligations.ResetStepRestoresRegisters := by
  intro s ts hturn
  obtain ⟨haddr, hcur, havail, hvalid, hinvalid, hprogress⟩ :=
    takeReset_registers ({ s with turns := ts }.record .resetTaken)
  exact ⟨_, step_reset hturn, haddr, hcur, havail, hvalid, hinvalid, hprogress, takeReset_readByte _,
    takeReset_trace _, takeReset_cfg _, takeReset_events _, takeReset_commands _, takeReset_turns _⟩

end Sys2Proof.Machine
